-- ==== Sys2Proof/Word.lean ====
section
/-!
DEFINITION. Word.lean: the byte and word types of the links, the sets of names the manual numbers
(ports, keyers, bus inputs, resources), and containers that hold one value for each name.

Spec: 00_scope.md 4.1 to 4.6, 12_frame_and_record_formats.md R178.
-/

namespace Sys2Proof

/-- One byte of a command frame or of a response. -/
abbrev Byte := BitVec 8
/-- A two-byte field of a frame, most significant byte first on the link (R178). -/
abbrev Half := BitVec 16
/-- A four-byte field of a frame; also the frame counter (R3). -/
abbrev Word := BitVec 32
/-- A 10-bit video component code, 0 to 1023 (00_scope.md 4.1). -/
abbrev Code := BitVec 10
/-- A source number, 0 to 127 (00_scope.md 4.3). -/
abbrev Source := Fin 128
/-- A raster index, 0 to 3 (R1). -/
abbrev Raster := Fin 4
/-- A scene slot number, 0 to 15 (R153). -/
abbrev Slot := Fin 16

/-- The three command ports (00_scope.md 2.3). -/
inductive Port where
  | cp0 | cp1 | cp2
  deriving DecidableEq, Repr

/-- The four keyers (00_scope.md 4.4). -/
inductive Keyer where
  | k1 | k2 | k3 | k4
  deriving DecidableEq, Repr

/-- The ten bus inputs: two backgrounds, and a fill and a key input for each keyer. -/
inductive InputId where
  | bga | bgb
  | fill (k : Keyer)
  | key (k : Keyer)
  deriving DecidableEq, Repr

/-- The seven entries of the lock table (00_scope.md 4.5). -/
inductive Resource where
  | bkgd
  | keyer (k : Keyer)
  | trans
  | setup
  deriving DecidableEq, Repr

/-- All three ports, in number order. -/
def Port.all : List Port := [.cp0, .cp1, .cp2]
/-- All four keyers, in number order. -/
def Keyer.all : List Keyer := [.k1, .k2, .k3, .k4]
/-- All ten inputs, in ascending input number (00_scope.md 4.4). -/
def InputId.all : List InputId :=
  [.bga, .bgb, .fill .k1, .key .k1, .fill .k2, .key .k2, .fill .k3, .key .k3, .fill .k4, .key .k4]
/-- All seven resources, in lock-table order (00_scope.md 4.5). -/
def Resource.all : List Resource :=
  [.bkgd, .keyer .k1, .keyer .k2, .keyer .k3, .keyer .k4, .trans, .setup]

/-- One value for each port. -/
structure PerPort (α : Type) where
  cp0 : α
  cp1 : α
  cp2 : α
  deriving DecidableEq, Repr

def PerPort.const {α : Type} (a : α) : PerPort α := ⟨a, a, a⟩

def PerPort.get {α : Type} (v : PerPort α) : Port → α
  | .cp0 => v.cp0
  | .cp1 => v.cp1
  | .cp2 => v.cp2

def PerPort.set {α : Type} (v : PerPort α) (p : Port) (a : α) : PerPort α :=
  match p with
  | .cp0 => { v with cp0 := a }
  | .cp1 => { v with cp1 := a }
  | .cp2 => { v with cp2 := a }

def PerPort.map {α β : Type} (f : α → β) (v : PerPort α) : PerPort β := ⟨f v.cp0, f v.cp1, f v.cp2⟩

/-- The value for each port computed from the port. -/
def PerPort.build {α : Type} (f : Port → α) : PerPort α := ⟨f .cp0, f .cp1, f .cp2⟩

/-- One value for each keyer. -/
structure PerKeyer (α : Type) where
  k1 : α
  k2 : α
  k3 : α
  k4 : α
  deriving DecidableEq, Repr

def PerKeyer.const {α : Type} (a : α) : PerKeyer α := ⟨a, a, a, a⟩

def PerKeyer.get {α : Type} (v : PerKeyer α) : Keyer → α
  | .k1 => v.k1
  | .k2 => v.k2
  | .k3 => v.k3
  | .k4 => v.k4

def PerKeyer.set {α : Type} (v : PerKeyer α) (k : Keyer) (a : α) : PerKeyer α :=
  match k with
  | .k1 => { v with k1 := a }
  | .k2 => { v with k2 := a }
  | .k3 => { v with k3 := a }
  | .k4 => { v with k4 := a }

def PerKeyer.map {α β : Type} (f : α → β) (v : PerKeyer α) : PerKeyer β :=
  ⟨f v.k1, f v.k2, f v.k3, f v.k4⟩

/-- The value for each keyer computed from the keyer. -/
def PerKeyer.build {α : Type} (f : Keyer → α) : PerKeyer α := ⟨f .k1, f .k2, f .k3, f .k4⟩

/-- One value for each bus input. -/
structure PerInput (α : Type) where
  bga : α
  bgb : α
  fill : PerKeyer α
  key : PerKeyer α
  deriving DecidableEq, Repr

def PerInput.const {α : Type} (a : α) : PerInput α := ⟨a, a, .const a, .const a⟩

def PerInput.get {α : Type} (v : PerInput α) : InputId → α
  | .bga => v.bga
  | .bgb => v.bgb
  | .fill k => v.fill.get k
  | .key k => v.key.get k

def PerInput.set {α : Type} (v : PerInput α) (i : InputId) (a : α) : PerInput α :=
  match i with
  | .bga => { v with bga := a }
  | .bgb => { v with bgb := a }
  | .fill k => { v with fill := v.fill.set k a }
  | .key k => { v with key := v.key.set k a }

def PerInput.map {α β : Type} (f : α → β) (v : PerInput α) : PerInput β :=
  ⟨f v.bga, f v.bgb, v.fill.map f, v.key.map f⟩

/-- One value for each resource. -/
structure PerResource (α : Type) where
  bkgd : α
  keyer : PerKeyer α
  trans : α
  setup : α
  deriving DecidableEq, Repr

def PerResource.const {α : Type} (a : α) : PerResource α := ⟨a, .const a, a, a⟩

def PerResource.get {α : Type} (v : PerResource α) : Resource → α
  | .bkgd => v.bkgd
  | .keyer k => v.keyer.get k
  | .trans => v.trans
  | .setup => v.setup

def PerResource.map {α β : Type} (f : α → β) (v : PerResource α) : PerResource β :=
  ⟨f v.bkgd, v.keyer.map f, f v.trans, f v.setup⟩

/-- The value for each resource computed from the resource. -/
def PerResource.build {α : Type} (f : Resource → α) : PerResource α :=
  ⟨f .bkgd, .build fun k => f (.keyer k), f .trans, f .setup⟩

/-- One video sample as it arrives on a bus input: (Y, Cb, Cr) (00_scope.md 4.1). At an odd
horizontal position only `y` is used (R110). -/
structure Pixel where
  y : Code
  cb : Code
  cr : Code
  deriving DecidableEq, Repr

end Sys2Proof
end

