-- ==== Sys2Proof/Config.lean ====
section
/-!
DEFINITION. Config.lean: the sizes and limits the manual fixes for the part, and the one setting of
the board that the model must choose: the raster strap that `State.reset` starts from.

The manual leaves no result value open. The one free value is where in a frame the active picture lies.
-/

namespace Sys2Proof.Config

/-- The raster that the strap pins select for `State.reset`: both pins low (R1).
DESIGN CHOICE, notes/assumptions/1.md; `Instr.resetAssert` reads any other strap. -/
def resetStrap : Raster := 0

/-- Samples of a frame from its switch point to the first active sample, on a raster (R110 counts x and y from
there). The manual does not say how many: a free value, notes/assumptions/25.md. -/
opaque pictureStart : Raster → Nat

/-- Entries the cue queue holds (R141). -/
def cueCapacity : Nat := 32

/-- Source numbers a tally change list holds (R135). -/
def changeListCapacity : Nat := 32

/-- Deferrals after which a start, key cut or scene cut goes ahead (R67, R68, R69). -/
def maxDeferrals : Nat := 4

/-- Where the working count saturates (R121). -/
def maxClipCount : Nat := 16777215

end Sys2Proof.Config
end

