-- ==== Sys2Proof/Machine/Raster.lean ====
section
/-!
DEFINITION. Machine/Raster.lean: the geometry and clock of the four rasters (R1, R2), and the source
numbers of the internal generators (00_scope.md 4.3).
-/

namespace Sys2Proof.Machine

/-- Active width Wa of a raster (R1). -/
def activeWidth (r : Raster) : Nat := if r.val < 2 then 1920 else 3840

/-- Active height Ha of a raster (R1). -/
def activeHeight (r : Raster) : Nat := if r.val < 2 then 1080 else 2160

/-- Total samples per line (R1). -/
def lineSamples (r : Raster) : Nat :=
  match r.val with
  | 0 => 2640
  | 1 => 2200
  | 2 => 5280
  | _ => 4400

/-- Total lines (R1). -/
def totalLines (r : Raster) : Nat := if r.val < 2 then 1125 else 2250

/-- Samples per frame F (R1). -/
def frameSamples (r : Raster) : Nat := lineSamples r * totalLines r

/-- Lines from the start of line 1 to the switch point at the start of line 7 (R2). -/
def switchLead (r : Raster) : Nat := 6 * lineSamples r

/-- Nominal sample clock in Hz (R1): F times the frame rate, 50 or 60000/1001. -/
def nominalClock (r : Raster) : Rat :=
  (frameSamples r : Rat) * (if r.val % 2 = 0 then 50 else (60000 : Rat) / 1001)

/-- The sample clock at rate trim `trim` (R2). -/
def sampleClock (r : Raster) (trim : Int) : Rat :=
  nominalClock r * (1 + (trim : Rat) * (5 / 100000000 : Rat))

/-- Source 124, BLACK (00_scope.md 4.3). -/
def black : Source := 124

/-- A source is external when its number is 0 to 123 (R20). -/
def isExternal (src : Source) : Bool := src.val < 124

end Sys2Proof.Machine
end

