-- ==== Sys2Proof/Machine/Types.lean ====
section
/-!
DEFINITION. Machine/Types.lean: the names and records of each block's state, as the chapter of the
block lists them. Every record is plain data.
-/

namespace Sys2Proof.Machine

/-! ### Reference timing generator (chapter 1) -/

inductive LockState where
  | free | seeking | locked | holdover
  deriving DecidableEq, Repr

inductive RefCond where
  | valid | absent | mismatch
  deriving DecidableEq, Repr

/-- A taken TIMING SETUP waiting for the next switch point (R14). -/
structure TimingPair where
  raster : Raster
  enable : Bool
  deriving DecidableEq, Repr

/-- The state of the RTG. The last five fields are what the manual implies by timing edges and
counting samples (R2, R4, R6, R10, R28): times are in engine samples from the release of RESET. -/
structure Rtg where
  raster : Raster
  enable : Bool
  pendingSetup : Option TimingPair
  lock : LockState
  cond : RefCond
  /-- The most recent reference line periods, newest first, at most four (R4). -/
  linePeriods : List Nat
  /-- The phase error e (R6). -/
  phaseErr : Int
  miss : Nat
  inWindow : Nat
  outCount : Nat
  trim : Int
  trimLimit : Bool
  counter : Word
  /-- The time of the latest reference line sync edge, if one can begin a line period. -/
  lastEdge : Option Nat
  /-- The time of the latest reference frame marker of the frame interval in progress (R5, R6). -/
  refMarker : Option Nat
  /-- The time of the latest switch point, 0 before the first. -/
  frameStart : Nat
  /-- The time of the switch point before that, 0 before the second. -/
  prevStart : Nat
  /-- Samples from the latest switch point to the next (R2, R10). -/
  frameLen : Nat
  deriving DecidableEq, Repr

/-! ### Bus inputs and crosspoint link (chapter 2) -/

inductive InputStatus where
  | aligned | settling | late | early | absent | internal
  deriving DecidableEq, Repr

/-- One input record. The in-flight flag is not stored: R19 defines it from the fields. -/
structure InputRec where
  requested : Source
  issued : Source
  live : Source
  awaiting : Bool
  status : InputStatus
  lastJudged : InputStatus
  advance : Option Nat
  settle : Nat
  faulted : Bool
  /-- The time of the latest frame marker on this input (R28). -/
  marker : Option Nat
  deriving DecidableEq, Repr

/-- A bus as a command names it (00_scope.md 4.4): PGM and PST name a role, the others an input. -/
inductive BusName where
  | pgm | pst
  | fill (k : Keyer)
  | key (k : Keyer)
  deriving DecidableEq, Repr

/-- A crosspoint record (R26, R180), without its check byte, which is computed. -/
structure XpRecord where
  input : InputId
  source : Source
  deriving DecidableEq, Repr

structure Bi where
  inputs : PerInput InputRec
  lMin : Nat
  lMax : Nat
  deriving DecidableEq, Repr

structure Xl where
  /-- Last sent, for each input (R26). -/
  lastSent : PerInput (Option Source)
  /-- The records sent as one burst at the latest switch point (R26), in order. -/
  burst : List XpRecord
  deriving DecidableEq, Repr

/-! ### M/E state (chapter 3) -/

inductive KeyType where
  | luma | linear
  deriving DecidableEq, Repr

inductive TransType where
  | mix | wipe
  deriving DecidableEq, Repr

inductive Pattern where
  | hbar | vbar | split | box | diamond
  deriving DecidableEq, Repr

/-- A set of layers: a subset of BKGD, K1, K2, K3, K4. -/
structure LayerSet where
  bkgd : Bool
  keyers : PerKeyer Bool
  deriving DecidableEq, Repr

structure KeyerSetup where
  type : KeyType
  invert : Bool
  clip : Nat
  gain : Nat
  opacity : Nat
  crop : Bool
  left : Nat
  right : Nat
  top : Nat
  bottom : Nat
  deriving DecidableEq, Repr

/-- The four keyers from bottom to top (R43). -/
structure KeyOrder where
  first : Keyer
  second : Keyer
  third : Keyer
  fourth : Keyer
  deriving DecidableEq, Repr

structure WipeSetup where
  pattern : Pattern
  softness : Nat
  rh : Nat
  rv : Nat
  cx : Nat
  cy : Nat
  reverse : Bool
  flipFlop : Bool
  deriving DecidableEq, Repr

structure Limiter where
  yLo : Nat
  yHi : Nat
  cLo : Nat
  cHi : Nat
  deriving DecidableEq, Repr

/-- One copy, next or live, of the setup state of section 3.1. -/
structure Setup where
  keyers : PerKeyer KeyerSetup
  order : KeyOrder
  selection : LayerSet
  type : TransType
  rate : Nat
  wipe : WipeSetup
  limiter : Limiter
  matte1 : Pixel
  matte2 : Pixel
  deriving DecidableEq, Repr

structure Mes where
  next : Setup
  live : Setup
  locks : PerResource (Option Port)
  deriving DecidableEq, Repr

/-! ### Transition controller (chapter 4) -/

inductive TcMode where
  | idle | auto | manual
  deriving DecidableEq, Repr

inductive Role where
  | bga | bgb
  deriving DecidableEq, Repr

inductive MainAction where
  | none | cut | auto
  deriving DecidableEq, Repr

inductive Driver where
  | auto | lever
  deriving DecidableEq, Repr

/-- The in-flight record (R60). -/
structure InFlight where
  selection : LayerSet
  type : TransType
  p0 : Nat
  r : Nat
  k : Nat
  driver : Driver
  deriving DecidableEq, Repr

/-- A pending key cut with its deferral count (R61, R64). -/
structure KeyCut where
  target : Bool
  deferrals : Nat
  deriving DecidableEq, Repr

/-- A pending scene cut (R78). -/
structure SceneCut where
  keyers : PerKeyer KeyerSetup
  onAir : PerKeyer Bool
  background : Bool
  deferrals : Nat
  deriving DecidableEq, Repr

structure Tc where
  mode : TcMode
  /-- The transition position P of the frame now rendering (R59). -/
  pos : Nat
  role : Role
  onAir : PerKeyer Bool
  inFlight : Option InFlight
  main : MainAction
  issuing : PerPort Bool
  mainDeferrals : Nat
  manualDeferrals : Nat
  keyCuts : PerKeyer (Option KeyCut)
  sceneCut : Option SceneCut
  resetPending : Bool
  deriving DecidableEq, Repr

/-! ### Lever unit (chapter 5) -/

/-- A lever end from which a port's values are measured: 0 or 1023. -/
inductive HomeEnd where
  | low | high
  deriving DecidableEq, Repr

inductive Pickup where
  | none | waiting
  deriving DecidableEq, Repr

/-- What the LU holds for one port. -/
structure Lever where
  home : HomeEnd
  value : Nat
  /-- The position PL. -/
  pos : Nat
  pickup : Pickup
  deriving DecidableEq, Repr

structure Lu where
  holder : Option Port
  quiet : Nat
  levers : PerPort Lever
  deriving DecidableEq, Repr

/-! ### Wipe generator (chapter 6) -/

inductive Direction where
  | normal | reversed
  deriving DecidableEq, Repr

structure Wg where
  direction : Direction
  reload : Bool
  deriving DecidableEq, Repr

/-! ### Composition pipeline (chapter 7) -/

/-- A sample of an output. At an odd position there is no chroma pair (R110). -/
structure OutSample where
  y : Nat
  chroma : Option (Nat × Nat)
  deriving DecidableEq, Repr

structure Cmp where
  working : Nat
  clipCount : Nat
  sticky : Bool
  /-- The sample most recently sent on the program output, if any. -/
  program : Option OutSample
  /-- The sample most recently sent on the preview output, if any. -/
  preview : Option OutSample
  deriving DecidableEq, Repr

/-! ### Tally unit (chapter 8) -/

structure TallyEntry where
  onProgram : Bool
  onPreview : Bool
  layers : LayerSet
  fault : Bool
  deriving DecidableEq, Repr

/-- One port's change list (front first) and overrun flag. -/
structure ChangeList where
  sources : List Source
  overrun : Bool
  deriving DecidableEq, Repr

structure Tu where
  table : Vector TallyEntry 128
  generation : Half
  changes : PerPort ChangeList
  deriving DecidableEq, Repr

/-! ### Outcomes and notices (chapter 11) -/

/-- The outcomes of a command (R170). -/
inductive CmdOutcome where
  | ok | clamped | ignored | illegal | check | param | locked | busy | full | late | pending
  deriving DecidableEq, Repr

/-- The notice flags (R171). -/
inductive Notice where
  | tally | done | ref | input | clip | locks | cueFail | cueDrop | torn | leverLost
  deriving DecidableEq, Repr

/-! ### Cue queue (chapter 9) -/

structure CueEntry where
  tag : Half
  owner : Port
  target : Word
  code : Byte
  args : List Byte
  deriving DecidableEq, Repr

/-- A port's last cue failure: a tag and the outcome (R147). -/
structure CueFailure where
  tag : Half
  outcome : CmdOutcome
  deriving DecidableEq, Repr

structure Cq where
  entries : List CueEntry
  nextTag : Half
  failures : PerPort (Option CueFailure)
  deriving DecidableEq, Repr

/-- The twelve commands a cue may carry (R143), with their arguments in the layout of R179. -/
inductive CueCommand where
  | selectBus (bus source : Byte)
  | setNext (layers type : Byte)
  | setRate (rate : Half)
  | keySetup (keyer flags : Byte) (clip gain opacity : Half)
  | keyCrop (keyer enable : Byte) (left right top bottom : Half)
  | keyOrder (first second third fourth : Byte)
  | wipeSetup (pattern : Byte) (softness : Half) (rh rv : Byte) (cx cy : Half) (flags : Byte)
  | matteSet (matte : Byte) (y cb cr : Half)
  | cut
  | auto
  | keyCut (keyer target : Byte)
  | sceneRecall (slot mode : Byte)
  deriving DecidableEq, Repr

/-! ### Scene store (chapter 10) -/

structure SceneBkgd where
  program : Source
  preset : Source
  deriving DecidableEq, Repr

structure SceneKeyer where
  fill : Source
  key : Source
  setup : KeyerSetup
  onAir : Bool
  deriving DecidableEq, Repr

structure SceneTrans where
  selection : LayerSet
  type : TransType
  rate : Nat
  wipe : WipeSetup
  deriving DecidableEq, Repr

/-- A scene record (R153): a part is present exactly when the group mask names its group. -/
structure Scene where
  bkgd : Option SceneBkgd
  keys : Option (PerKeyer SceneKeyer)
  trans : Option SceneTrans
  order : Option KeyOrder
  deriving DecidableEq, Repr

structure Ss where
  slots : Vector (Option Scene) 16
  protect : Nat
  deriving DecidableEq, Repr

/-! ### Command ports (chapter 11) -/

inductive LinkPhase where
  | closed | receiving | awaiting | sending | spent
  deriving DecidableEq, Repr

inductive LeverFormat where
  | right | left
  deriving DecidableEq, Repr

/-- A command's answer, held until the port has formed the response from it. -/
structure Reply where
  outcome : CmdOutcome
  data : List Byte
  deriving DecidableEq, Repr

/-- A complete frame with a correct check byte that waits at its port for the intake (R169): whether the
port read it as a stream frame, and the bytes that its check byte covers. -/
structure WaitingFrame where
  stream : Bool
  covered : List Byte
  deriving DecidableEq, Repr

structure PortState where
  phase : LinkPhase
  /-- The select line, an input pin: true while the master drives it low. -/
  selectLow : Bool
  streaming : Bool
  format : LeverFormat
  quietLimit : Nat
  /-- The notice word (R171). -/
  flags : Half
  mask : Half
  /-- The answer of the command in AWAITING. -/
  reply : Option Reply
  /-- The response being shifted out in SENDING: status, data, check byte. -/
  response : List Byte
  /-- The port's commands that wait for the intake, oldest first (R169). -/
  waiting : List WaitingFrame
  deriving DecidableEq, Repr

end Sys2Proof.Machine
end

