-- ==== Sys2Proof/Machine/PowerOn.lean ====
section
/-!
DEFINITION. Machine/PowerOn.lean: the power-on value of each block's state, and the default setups
that power-on and ENGINE RESET share (R18, R36, R56, R80, R96, R108, R127, R138, R152, R162, R177).
-/

namespace Sys2Proof.Machine

/-- The empty set of layers. -/
def noLayers : LayerSet := ⟨false, .const false⟩

/-- The selection {BKGD}. -/
def bkgdOnly : LayerSet := ⟨true, .const false⟩

/-- A keyer's default setup on raster `r` (R56): the crop rectangle is the full rectangle. -/
def defaultKeyer (r : Raster) : KeyerSetup where
  type := .linear
  invert := false
  clip := 64
  gain := 300
  opacity := 4096
  crop := false
  left := 0
  right := activeWidth r
  top := 0
  bottom := activeHeight r

/-- The default wipe setup (R56, R108). -/
def defaultWipe : WipeSetup := ⟨.hbar, 0, 1, 1, 2048, 2048, false, false⟩

/-- The default setups on raster `r` (R21, R56). -/
def defaultSetup (r : Raster) : Setup where
  keyers := .const (defaultKeyer r)
  order := ⟨.k1, .k2, .k3, .k4⟩
  selection := bkgdOnly
  type := .mix
  rate := 30
  wipe := defaultWipe
  limiter := ⟨64, 940, 64, 960⟩
  matte1 := ⟨502, 512, 512⟩
  matte2 := ⟨940, 512, 512⟩

/-- The RTG at power-on with the raster strapped to `r` (R18). RESET is released at the first sample
of line 1, so the first switch point comes six lines later (R2). -/
def powerOnRtg (r : Raster) : Rtg where
  raster := r
  enable := false
  pendingSetup := none
  lock := .free
  cond := .absent
  linePeriods := []
  phaseErr := 0
  miss := 0
  inWindow := 0
  outCount := 0
  trim := 0
  trimLimit := false
  counter := 0
  lastEdge := none
  refMarker := none
  frameStart := 0
  prevStart := 0
  frameLen := switchLead r

/-- An input record at power-on (R36). -/
def powerOnInput : InputRec where
  requested := black
  issued := black
  live := black
  awaiting := false
  status := .internal
  lastJudged := .internal
  advance := none
  settle := 0
  faulted := false
  marker := none

/-- The TC at power-on (R80). -/
def powerOnTc : Tc where
  mode := .idle
  pos := 0
  role := .bga
  onAir := .const false
  inFlight := none
  main := .none
  issuing := .const false
  mainDeferrals := 0
  manualDeferrals := 0
  keyCuts := .const none
  sceneCut := none
  resetPending := false

/-- A port's lever at power-on and after PORT RESET (R96). -/
def powerOnLever : Lever := ⟨.low, 0, 0, .none⟩

/-- A tally entry with every field off (R128). -/
def tallyOff : TallyEntry := ⟨false, false, noLayers, false⟩

/-- The notice mask with all ten flags enabled, 03FFh (R173). -/
def allNotices : Half := 0x3FF#16

/-- A port at power-on (R177); the select line is a pin and keeps its level. -/
def powerOnPort (selectLow : Bool) : PortState where
  phase := .closed
  selectLow := selectLow
  streaming := false
  format := .right
  quietLimit := 50
  flags := 0
  mask := allNotices
  reply := none
  response := []
  waiting := []

end Sys2Proof.Machine
end

