-- ==== Sys2Proof/Machine/Operands.lean ====
section
/-!
DEFINITION. Machine/Operands.lean: the fields of frames and records as bytes, both ways: the codes of
R178, the argument lengths of R179, the check byte of R181, the scene record of R183.
-/

namespace Sys2Proof.Machine

/-! ### Byte order (R178) -/

/-- A two-byte field, most significant byte first. -/
def be16 (h : Half) : List Byte := [h.extractLsb' 8 8, h.extractLsb' 0 8]

/-- A four-byte field, most significant byte first. -/
def be32 (w : Word) : List Byte :=
  [w.extractLsb' 24 8, w.extractLsb' 16 8, w.extractLsb' 8 8, w.extractLsb' 0 8]

/-- A number as a byte. -/
def byteOf (n : Nat) : Byte := BitVec.ofNat 8 n

/-- A number as a two-byte field. -/
def be16n (n : Nat) : List Byte := be16 (BitVec.ofNat 16 n)

/-- A signed number as a two-byte field in two's complement. -/
def be16i (n : Int) : List Byte := be16 (BitVec.ofInt 16 n)

/-- The three-byte clip count field (R182). -/
def be24n (n : Nat) : List Byte := [byteOf (n / 65536), byteOf (n / 256), byteOf n]

/-- Two bytes, most significant first, as a field. -/
def half (hi lo : Byte) : Half := hi ++ lo

/-- Four bytes, most significant first, as a field. -/
def word (b3 b2 b1 b0 : Byte) : Word := half b3 b2 ++ half b1 b0

/-! ### The check byte (R164, R181) -/

/-- One of the eight shifts of the CRC register. -/
def crcShift (r : Byte) : Byte := if r.msb then (r <<< 1) ^^^ 0x07#8 else r <<< 1

/-- The register after one byte. -/
def crcByte (r b : Byte) : Byte :=
  crcShift (crcShift (crcShift (crcShift (crcShift (crcShift (crcShift (crcShift (r ^^^ b))))))))

/-- The check byte over the bytes it covers. -/
def crc8 (bytes : List Byte) : Byte := bytes.foldl crcByte 0

/-! ### Codes of enumerated fields (R178) -/

/-- A flag or target byte: 00h off, 01h on. -/
def boolOf (b : Byte) : Option Bool :=
  match b.toNat with
  | 0 => some false
  | 1 => some true
  | _ => none

def boolCode (b : Bool) : Byte := if b then 1 else 0

/-- A keyer number, 1 to 4. -/
def keyerOf (b : Byte) : Option Keyer :=
  match b.toNat with
  | 1 => some .k1
  | 2 => some .k2
  | 3 => some .k3
  | 4 => some .k4
  | _ => none

def keyerNumber : Keyer → Nat
  | .k1 => 1
  | .k2 => 2
  | .k3 => 3
  | .k4 => 4

/-- A source number, 0 to 127. -/
def sourceOf (b : Byte) : Option Source :=
  if h : b.toNat < 128 then some ⟨b.toNat, h⟩ else none

def sourceByte (src : Source) : Byte := byteOf src.val

/-- A slot number, 0 to 15. -/
def slotOf (b : Byte) : Option Slot :=
  if h : b.toNat < 16 then some ⟨b.toNat, h⟩ else none

/-- A raster index, 0 to 3. -/
def rasterOf (b : Byte) : Option Raster :=
  if h : b.toNat < 4 then some ⟨b.toNat, h⟩ else none

/-- An input number, 0 to 9 (00_scope.md 4.4). -/
def inputOf (b : Byte) : Option InputId := InputId.all[b.toNat]?

def inputNumber : InputId → Nat
  | .bga => 0
  | .bgb => 1
  | .fill k => 2 * keyerNumber k
  | .key k => 2 * keyerNumber k + 1

/-- A bus code. -/
def busOf (b : Byte) : Option BusName :=
  match b.toNat with
  | 0 => some .pgm
  | 1 => some .pst
  | 2 => some (.fill .k1)
  | 3 => some (.key .k1)
  | 4 => some (.fill .k2)
  | 5 => some (.key .k2)
  | 6 => some (.fill .k3)
  | 7 => some (.key .k3)
  | 8 => some (.fill .k4)
  | 9 => some (.key .k4)
  | _ => none

/-- A layer mask: bit 0 BKGD, bits 1 to 4 K1 to K4; any other bit refuses it. -/
def layersOf (b : Byte) : Option LayerSet :=
  if b.toNat < 32 then
    some ⟨b.getLsbD 0, ⟨b.getLsbD 1, b.getLsbD 2, b.getLsbD 3, b.getLsbD 4⟩⟩
  else none

def layersCode (l : LayerSet) : Byte :=
  byteOf (l.bkgd.toNat + 2 * l.keyers.k1.toNat + 4 * l.keyers.k2.toNat + 8 * l.keyers.k3.toNat
    + 16 * l.keyers.k4.toNat)

/-- The set names at least one layer. -/
def LayerSet.nonEmpty (l : LayerSet) : Bool :=
  l.bkgd || l.keyers.k1 || l.keyers.k2 || l.keyers.k3 || l.keyers.k4

/-- A selection: a layer mask that names at least one layer (R44). -/
def selectionOf (b : Byte) : Option LayerSet := (layersOf b).filter LayerSet.nonEmpty

def typeOf (b : Byte) : Option TransType :=
  match b.toNat with
  | 0 => some .mix
  | 1 => some .wipe
  | _ => none

def typeCode : TransType → Byte
  | .mix => 0
  | .wipe => 1

def keyTypeOf (linear : Bool) : KeyType := if linear then .linear else .luma

def KeyType.isLinear : KeyType → Bool
  | .luma => false
  | .linear => true

def patternOf (b : Byte) : Option Pattern :=
  match b.toNat with
  | 0 => some .hbar
  | 1 => some .vbar
  | 2 => some .split
  | 3 => some .box
  | 4 => some .diamond
  | _ => none

def patternCode : Pattern → Byte
  | .hbar => 0
  | .vbar => 1
  | .split => 2
  | .box => 3
  | .diamond => 4

/-- The bit of a resource in a resource mask. -/
def resourceBit : Resource → Nat
  | .bkgd => 0
  | .keyer k => keyerNumber k
  | .trans => 5
  | .setup => 6

/-- The resources a mask names, in table order. -/
def maskResources (mask : Byte) : List Resource :=
  Resource.all.filter fun r => mask.getLsbD (resourceBit r)

def portCode : Option Port → Byte
  | some .cp0 => 0
  | some .cp1 => 1
  | some .cp2 => 2
  | none => 0xFF#8

def modeCode : TcMode → Byte
  | .idle => 0
  | .auto => 1
  | .manual => 2

def roleCode : Role → Byte
  | .bga => 0
  | .bgb => 1

def mainCode : MainAction → Byte
  | .none => 0
  | .cut => 1
  | .auto => 2

def lockCode : LockState → Byte
  | .free => 0
  | .seeking => 1
  | .locked => 2
  | .holdover => 3

def condCode : RefCond → Nat
  | .valid => 0
  | .absent => 1
  | .mismatch => 2

def statusCode : InputStatus → Byte
  | .aligned => 0
  | .settling => 1
  | .late => 2
  | .early => 3
  | .absent => 4
  | .internal => 5

/-- The code of an outcome (R170). -/
def outcomeCode : CmdOutcome → Byte
  | .ok => 0
  | .clamped => 1
  | .ignored => 2
  | .illegal => 3
  | .check => 4
  | .param => 5
  | .locked => 6
  | .busy => 7
  | .full => 8
  | .late => 9
  | .pending => 10

/-- The refused outcomes (R170). -/
def CmdOutcome.refused : CmdOutcome → Bool
  | .illegal | .check | .param | .locked | .busy | .full | .late => true
  | .ok | .clamped | .ignored | .pending => false

/-! ### Command codes and argument lengths (R179) -/

/-- The codes of R179 whose argument length is fixed, with that length. -/
def fixedLengths : List (Nat × Nat) :=
  [(0x01, 0), (0x02, 0), (0x03, 1), (0x04, 3), (0x05, 0), (0x06, 0), (0x07, 0), (0x08, 1), (0x09, 0)]
  ++ [(0x10, 2), (0x11, 2), (0x12, 2), (0x13, 8), (0x14, 10), (0x15, 4), (0x16, 10), (0x17, 7)]
  ++ [(0x18, 8), (0x19, 1), (0x1A, 1), (0x20, 0), (0x21, 0), (0x22, 2), (0x23, 3), (0x24, 0)]
  ++ [(0x31, 2), (0x38, 2), (0x39, 2), (0x3A, 1), (0x3C, 1), (0x40, 2), (0x41, 4), (0x42, 2)]
  ++ [(0x48, 2), (0x49, 2), (0x4A, 0), (0x4B, 0)]

/-- A byte is a command code of the engine: one of the fixed ones, CUE (30h) or SCENE LOAD (3Bh). -/
def isCommandCode (b : Byte) : Bool :=
  (fixedLengths.lookup b.toNat).isSome || b == 0x30#8 || b == 0x3B#8

/-- The number of argument bytes of a CUE's embedded command: that of its code, and none for a byte
that is no code or whose length its code does not fix (R143). -/
def embeddedLength (code : Byte) : Nat := (fixedLengths.lookup code.toNat).getD 0

/-- The number of bytes of the parts a group mask names (R156, R165, R183). -/
def partsLength (mask : Byte) : Nat :=
  (if mask.getLsbD 0 then 2 else 0) + (if mask.getLsbD 1 then 68 else 0)
    + (if mask.getLsbD 2 then 14 else 0) + (if mask.getLsbD 3 then 4 else 0)

/-- The embedded command that a code and its argument bytes spell, when the code is one of the twelve
of R143 and the bytes are as many as its argument length. -/
def parseCue (code : Byte) (args : List Byte) : Option CueCommand :=
  match code.toNat, args with
  | 0x10, [bus, src] => some (.selectBus bus src)
  | 0x11, [layers, type] => some (.setNext layers type)
  | 0x12, [r1, r0] => some (.setRate (half r1 r0))
  | 0x13, [k, f, c1, c0, g1, g0, o1, o0] =>
    some (.keySetup k f (half c1 c0) (half g1 g0) (half o1 o0))
  | 0x14, [k, e, l1, l0, r1, r0, t1, t0, b1, b0] =>
    some (.keyCrop k e (half l1 l0) (half r1 r0) (half t1 t0) (half b1 b0))
  | 0x15, [a, b, c, d] => some (.keyOrder a b c d)
  | 0x16, [pat, e1, e0, rh, rv, x1, x0, y1, y0, f] =>
    some (.wipeSetup pat (half e1 e0) rh rv (half x1 x0) (half y1 y0) f)
  | 0x17, [m, y1, y0, b1, b0, r1, r0] =>
    some (.matteSet m (half y1 y0) (half b1 b0) (half r1 r0))
  | 0x20, [] => some .cut
  | 0x21, [] => some .auto
  | 0x22, [k, t] => some (.keyCut k t)
  | 0x39, [slot, mode] => some (.sceneRecall slot mode)
  | _, _ => none

/-! ### Setup records from argument fields -/

/-- The key order four bytes name, when they are a permutation of the keyers (R43). -/
def orderOf (a b c d : Byte) : Option KeyOrder :=
  match keyerOf a, keyerOf b, keyerOf c, keyerOf d with
  | some k, some l, some m, some n =>
    if k ≠ l ∧ k ≠ m ∧ k ≠ n ∧ l ≠ m ∧ l ≠ n ∧ m ≠ n then some ⟨k, l, m, n⟩ else none
  | _, _, _, _ => none

def KeyOrder.toList (o : KeyOrder) : List Keyer := [o.first, o.second, o.third, o.fourth]

def orderBytes (o : KeyOrder) : List Byte := o.toList.map fun k => byteOf (keyerNumber k)

/-- The wipe setup that the arguments of WIPE SETUP carry, when every field is in range (R105). -/
def wipeOf (pattern : Byte) (softness : Half) (rh rv : Byte) (cx cy : Half) (flags : Byte) :
    Option WipeSetup :=
  match patternOf pattern with
  | none => none
  | some pat =>
    if softness.toNat ≤ 1024 ∧ 1 ≤ rh.toNat ∧ rh.toNat ≤ 16 ∧ 1 ≤ rv.toNat ∧ rv.toNat ≤ 16
        ∧ cx.toNat ≤ 4095 ∧ cy.toNat ≤ 4095 ∧ flags.toNat < 4 then
      some ⟨pat, softness.toNat, rh.toNat, rv.toNat, cx.toNat, cy.toNat,
        flags.getLsbD 0, flags.getLsbD 1⟩
    else none

def wipeBytes (w : WipeSetup) : List Byte :=
  [patternCode w.pattern] ++ be16n w.softness ++ [byteOf w.rh, byteOf w.rv] ++ be16n w.cx
    ++ be16n w.cy ++ [byteOf (w.reverse.toNat + 2 * w.flipFlop.toNat)]

/-- A keyer's crop edges reduced to the raster (R40, R42, R159). -/
def clampCrop (r : Raster) (k : KeyerSetup) : KeyerSetup :=
  { k with
    left := min k.left (activeWidth r)
    right := min k.right (activeWidth r)
    top := min k.top (activeHeight r)
    bottom := min k.bottom (activeHeight r) }

/-- A crop edge lies beyond the raster. -/
def cropBeyond (r : Raster) (k : KeyerSetup) : Bool :=
  decide (activeWidth r < k.left) || decide (activeWidth r < k.right)
    || decide (activeHeight r < k.top) || decide (activeHeight r < k.bottom)

/-! ### The scene record (R183) -/

/-- One keyer's 17 bytes, when every field is in range (R153, R156). -/
def sceneKeyerOf (bytes : List Byte) : Option SceneKeyer :=
  match bytes with
  | [fill, key, f, c1, c0, g1, g0, o1, o0, l1, l0, r1, r0, t1, t0, b1, b0] =>
    match sourceOf fill, sourceOf key with
    | some fill, some key =>
      if f.toNat < 16 ∧ (half c1 c0).toNat ≤ 1023 ∧ (half g1 g0).toNat ≤ 4095
          ∧ (half o1 o0).toNat ≤ 4096 ∧ (half l1 l0).toNat ≤ 3840 ∧ (half r1 r0).toNat ≤ 3840
          ∧ (half t1 t0).toNat ≤ 2160 ∧ (half b1 b0).toNat ≤ 2160 then
        some ⟨fill, key,
          { type := keyTypeOf (f.getLsbD 0), invert := f.getLsbD 1
            clip := (half c1 c0).toNat, gain := (half g1 g0).toNat, opacity := (half o1 o0).toNat
            crop := f.getLsbD 2
            left := (half l1 l0).toNat, right := (half r1 r0).toNat
            top := (half t1 t0).toNat, bottom := (half b1 b0).toNat },
          f.getLsbD 3⟩
      else none
    | _, _ => none
  | _ => none

def sceneKeyerBytes (k : SceneKeyer) : List Byte :=
  [sourceByte k.fill, sourceByte k.key,
    byteOf (k.setup.type.isLinear.toNat + 2 * k.setup.invert.toNat + 4 * k.setup.crop.toNat
      + 8 * k.onAir.toNat)]
    ++ be16n k.setup.clip ++ be16n k.setup.gain ++ be16n k.setup.opacity ++ be16n k.setup.left
    ++ be16n k.setup.right ++ be16n k.setup.top ++ be16n k.setup.bottom

def sceneBkgdOf (bytes : List Byte) : Option SceneBkgd :=
  match bytes with
  | [program, preset] =>
    match sourceOf program, sourceOf preset with
    | some program, some preset => some ⟨program, preset⟩
    | _, _ => none
  | _ => none

def sceneKeysOf (bytes : List Byte) : Option (PerKeyer SceneKeyer) :=
  match sceneKeyerOf (bytes.take 17), sceneKeyerOf ((bytes.drop 17).take 17),
      sceneKeyerOf ((bytes.drop 34).take 17), sceneKeyerOf (bytes.drop 51) with
  | some a, some b, some c, some d => some ⟨a, b, c, d⟩
  | _, _, _, _ => none

def sceneTransOf (bytes : List Byte) : Option SceneTrans :=
  match bytes with
  | [layers, type, r1, r0, pat, e1, e0, rh, rv, x1, x0, y1, y0, f] =>
    match selectionOf layers, typeOf type,
        wipeOf pat (half e1 e0) rh rv (half x1 x0) (half y1 y0) f with
    | some sel, some type, some wipe =>
      if (half r1 r0).toNat ≤ 999 then some ⟨sel, type, (half r1 r0).toNat, wipe⟩ else none
    | _, _, _ => none
  | _ => none

def sceneOrderOf (bytes : List Byte) : Option KeyOrder :=
  match bytes with
  | [a, b, c, d] => orderOf a b c d
  | _ => none

/-- One part of a record: absent when the mask leaves its group out, refused when out of range. -/
def scenePart {α : Type} (present : Bool) (part : Option α) : Option (Option α) :=
  if present then part.map some else some none

/-- The scene record that a group mask and the bytes of its parts spell, in the order BKGD, KEYS,
TRANS, ORDER; none when the mask or a field is out of range (R156, R183). -/
def sceneOf (mask : Byte) (parts : List Byte) : Option Scene :=
  if mask.toNat = 0 ∨ 16 ≤ mask.toNat then none
  else
    let keysAt := if mask.getLsbD 0 then 2 else 0
    let transAt := keysAt + if mask.getLsbD 1 then 68 else 0
    let orderAt := transAt + if mask.getLsbD 2 then 14 else 0
    match scenePart (mask.getLsbD 0) (sceneBkgdOf (parts.take 2)),
        scenePart (mask.getLsbD 1) (sceneKeysOf ((parts.drop keysAt).take 68)),
        scenePart (mask.getLsbD 2) (sceneTransOf ((parts.drop transAt).take 14)),
        scenePart (mask.getLsbD 3) (sceneOrderOf ((parts.drop orderAt).take 4)) with
    | some b, some k, some t, some o => some ⟨b, k, t, o⟩
    | _, _, _, _ => none

/-- The group mask of a record. -/
def sceneMask (sc : Scene) : Byte :=
  byteOf (sc.bkgd.isSome.toNat + 2 * sc.keys.isSome.toNat + 4 * sc.trans.isSome.toNat
    + 8 * sc.order.isSome.toNat)

/-- A record as SCENE READ returns it: the mask and the parts (R158, R183). -/
def sceneBytes (sc : Scene) : List Byte :=
  [sceneMask sc]
    ++ (match sc.bkgd with
        | some b => [sourceByte b.program, sourceByte b.preset]
        | none => [])
    ++ (match sc.keys with
        | some k => sceneKeyerBytes k.k1 ++ sceneKeyerBytes k.k2 ++ sceneKeyerBytes k.k3
            ++ sceneKeyerBytes k.k4
        | none => [])
    ++ (match sc.trans with
        | some t => [layersCode t.selection, typeCode t.type] ++ be16n t.rate ++ wipeBytes t.wipe
        | none => [])
    ++ (match sc.order with
        | some o => orderBytes o
        | none => [])

/-- A tally entry byte (R182). -/
def tallyByte (e : TallyEntry) : Byte :=
  byteOf (e.onProgram.toNat + 2 * e.onPreview.toNat + 4 * (layersCode e.layers).toNat
    + 128 * e.fault.toNat)

end Sys2Proof.Machine
end

