-- ==== Sys2Proof/Syntax.lean ====
section
/-!
DEFINITION. Syntax.lean: the commands and events of the block, one constructor for each row of
spec/opcode_table.json.

A row that stands for a frame on a command port carries the port, the argument bytes of R179 in
their order and the check byte as received (R164). A row that stands for a timed event carries
`t`, the number of engine sample periods from the latest switch point (or from the release of
RESET) to the event. The switch-point rows that sample XREADY carry the level seen (R24).
-/

namespace Sys2Proof

/-- The block's commands and events. -/
inductive Instr where
  -- read commands (frames on a port)
  | stateRead (p : Port) (chk : Byte)
  | timingRead (p : Port) (chk : Byte)
  | inputRead (p : Port) (input chk : Byte)
  | tallyRead (p : Port) (start count window chk : Byte)
  | tallyChanges (p : Port) (chk : Byte)
  | clipRead (p : Port) (chk : Byte)
  | cueList (p : Port) (chk : Byte)
  | sceneRead (p : Port) (slot chk : Byte)
  | noticeRead (p : Port) (chk : Byte)
  -- bus and setup commands
  | selectBus (p : Port) (bus source chk : Byte)
  | setNext (p : Port) (layers type chk : Byte)
  | setRate (p : Port) (rate : Half) (chk : Byte)
  | keySetup (p : Port) (keyer flags : Byte) (clip gain opacity : Half) (chk : Byte)
  | keyCrop (p : Port) (keyer enable : Byte) (left right top bottom : Half) (chk : Byte)
  | keyOrder (p : Port) (first second third fourth chk : Byte)
  | wipeSetup (p : Port) (pattern : Byte) (softness : Half) (rh rv : Byte) (cx cy : Half)
      (flags chk : Byte)
  | matteSet (p : Port) (matte : Byte) (y cb cr : Half) (chk : Byte)
  | limiterSetup (p : Port) (yLo yHi cLo cHi : Half) (chk : Byte)
  -- locks
  | lock (p : Port) (mask chk : Byte)
  | unlock (p : Port) (mask chk : Byte)
  -- transition and lever commands
  | cut (p : Port) (chk : Byte)
  | auto (p : Port) (chk : Byte)
  | keyCut (p : Port) (keyer target chk : Byte)
  | lever (p : Port) (value : Half) (mode chk : Byte)
  | leverRelease (p : Port) (chk : Byte)
  -- cues: `body` is what the master shifts in after the embedded code: arguments, check, extra bytes
  | cue (p : Port) (target : Word) (code : Byte) (body : List Byte)
  | cueCancel (p : Port) (tag : Half) (chk : Byte)
  -- scenes: the `body` of SCENE LOAD is what follows the group mask: parts, check, extra bytes
  | sceneSave (p : Port) (slot mask chk : Byte)
  | sceneLoad (p : Port) (slot mask : Byte) (body : List Byte)
  | sceneErase (p : Port) (slot chk : Byte)
  | sceneRecall (p : Port) (slot mode chk : Byte)
  | sceneProtect (p : Port) (count chk : Byte)
  -- timing, alignment, port setup and resets
  | timingSetup (p : Port) (raster enable chk : Byte)
  | setFrameCount (p : Port) (value : Word) (chk : Byte)
  | alignSetup (p : Port) (lMin lMax chk : Byte)
  | portSetup (p : Port) (format quiet chk : Byte)
  | noticeMask (p : Port) (mask : Half) (chk : Byte)
  | portReset (p : Port) (chk : Byte)
  | engineReset (p : Port) (chk : Byte)
  -- link events of a port
  | streamFrame (p : Port) (value : Half) (mode chk : Byte)
  | breakFrame (p : Port)
  | illegal (p : Port) (code : Byte)
  | tornFrame (p : Port)
  | responseLost (p : Port)
  | responseReady (p : Port)
  -- pins and arriving video timing
  | resetAssert (rsel : BitVec 2)
  | resetRelease
  | referenceLineSync (t : Nat)
  | referenceFrameMarker (t : Nat)
  | inputFrameMarker (input : InputId) (t : Nat)
  -- the switch point, and the steps within it
  | switchPoint (xready : Bool)
  | timingSetupApply
  | issue (xready : Bool)
  | goLive
  | engineResetApply
  | sceneCutApply
  | keyCutApply (k : Keyer)
  | cutPerform
  | autoStart
  | takeover
  | manualStart
  | completion
  | quietLimitExpiry
  | cueRelease
  -- further link events
  | selectFall (p : Port)
  | responseSent (p : Port)
  | transactionEnd (p : Port)
  -- one active sample of the picture, with the samples that arrive on the ten inputs
  | activeSample (x y : Nat) (inputs : PerInput Pixel)
  deriving DecidableEq, Repr

end Sys2Proof
end

