-- ==== Sys2Proof/WellFormed.lean ====
section
/-!
DEFINITION. WellFormed.lean: which terms of `Instr` stand for an event that can occur. Argument bytes
need no check here: the manual gives every value of every byte an outcome.
-/

namespace Sys2Proof

open Sys2Proof.Machine

/-- A command or event is well formed:
a CUE or SCENE LOAD brings at least the bytes up to its check byte (R143, R156, R165);
the first byte of an ILLEGAL frame is no command code (R165);
a stream frame's first byte is not FFh, which is a break (R168);
an active sample stands within the largest active picture (R1, R110). -/
def Instr.wellFormed : Instr → Bool
  | .cue _ _ code body => decide (embeddedLength code < body.length)
  | .sceneLoad _ _ mask body => decide (partsLength mask < body.length)
  | .illegal _ code => !isCommandCode code
  | .streamFrame _ value _ _ => value.extractLsb' 8 8 != 0xFF#8
  | .activeSample x y _ => decide (x < 3840) && decide (y < 2160)
  | _ => true

end Sys2Proof
end

