-- ==== Sys2Proof/Decode.lean ====
section
/-!
DEFINITION. Decode.lean: the command that a word of the opcode table spells. The block has no
instruction words: spec/opcode_table.json gives no row any bits, so no word spells a command. The
bytes of command frames are operands of the commands, and Machine/Operands.lean reads them.
-/

namespace Sys2Proof

/-- No row of spec/opcode_table.json has bits, so there is nothing to decode. -/
def decodeTableWord (_nbits _w : Nat) : Option Instr := none

end Sys2Proof
end

