-- ==== Sys2Proof/Machine/State.lean ====
section
/-!
DEFINITION. Machine/State.lean: the state of the block, the reasons a step can stop, and the state
after reset.
-/

namespace Sys2Proof.Machine

/-- The whole state of the engine: the waiting commands, and each block's state. -/
structure State where
  /-- Commands and events waiting, oldest first. The model's own field. -/
  pending : List Instr
  /-- The RESET pin is asserted (R177). -/
  resetLow : Bool
  rtg : Rtg
  bi : Bi
  xl : Xl
  mes : Mes
  tc : Tc
  lu : Lu
  wg : Wg
  cmp : Cmp
  tu : Tu
  cq : Cq
  ss : Ss
  ports : PerPort PortState
  /-- The intake's last granted port (R169). -/
  lastGranted : Port
  deriving DecidableEq, Repr

/-- The reasons the machine stops with a fault. There is none: the manual gives every command an
outcome and every event an effect, so no meaning raises a fault. Safe: nothing is stopped. -/
inductive Fault where
  deriving DecidableEq, Repr

/-- The reasons a command has no meaning. -/
inductive Refusal where
  /-- Raised by `exec` for a row of the table whose meaning is not written. Safe: nothing can be
  proved of a state that is never reached. -/
  | notModelled (mnemonic : String)
  deriving DecidableEq, Repr

/-- Every block at its power-on value, on the raster strapped to `r`, with the select lines as given
(R18, R36, R56, R80, R96, R108, R127, R138, R152, R162, R177). -/
def State.powerOn (r : Raster) (select : PerPort Bool) (resetLow : Bool) : State where
  pending := []
  resetLow := resetLow
  rtg := powerOnRtg r
  bi := ⟨.const powerOnInput, 1, 6⟩
  xl := ⟨.const none, []⟩
  mes := ⟨defaultSetup r, defaultSetup r, .const none⟩
  tc := powerOnTc
  lu := ⟨none, 0, .const powerOnLever⟩
  wg := ⟨.normal, false⟩
  cmp := ⟨0, 0, false, none, none⟩
  tu := ⟨Vector.replicate 128 tallyOff, 0, .const ⟨[], false⟩⟩
  cq := ⟨[], 1, .const none⟩
  ss := ⟨Vector.replicate 16 none, 0⟩
  ports := select.map powerOnPort
  lastGranted := .cp2

/-- The engine right after RESET is released: power-on values, every select line high, the raster
strap as `Config.resetStrap` gives (notes/assumptions/1.md). -/
def State.reset : State := State.powerOn Config.resetStrap (.const false) false

end Sys2Proof.Machine
end

