-- ==== Sys2Proof/Machine/Flags.lean ====
section
/-!
DEFINITION. Machine/Flags.lean: the notice flags of the ports: positions in the notice word, raising,
clearing, the attention line and the ATTN bit (R171, R172, R173).
-/

namespace Sys2Proof.Machine

/-- A flag's position in the notice word (R171). -/
def noticeBit : Notice → Nat
  | .tally => 0
  | .done => 1
  | .ref => 2
  | .input => 3
  | .clip => 4
  | .locks => 5
  | .cueFail => 6
  | .cueDrop => 7
  | .torn => 8
  | .leverLost => 9

/-- The notice word with a flag set: a flag already set stays set (R171). -/
def setFlag (word : Half) (n : Notice) : Half := word ||| BitVec.twoPow 16 (noticeBit n)

/-- A flag's value in a notice word. -/
def flagSet (word : Half) (n : Notice) : Bool := word.getLsbD (noticeBit n)

/-- Replaces the state of one port. -/
def State.setPort (s : State) (p : Port) (ps : PortState) : State :=
  { s with ports := s.ports.set p ps }

/-- The port's state. -/
def State.port (s : State) (p : Port) : PortState := s.ports.get p

/-- Raises a flag to one port (R171). -/
def raiseTo (n : Notice) (p : Port) (s : State) : State :=
  s.setPort p { s.port p with flags := setFlag (s.port p).flags n }

/-- Raises a flag to every port (R171). -/
def raiseAll (n : Notice) (s : State) : State :=
  { s with ports := s.ports.map fun ps => { ps with flags := setFlag ps.flags n } }

/-- Raises a flag to every port when a condition holds. -/
def raiseAllWhen (c : Bool) (n : Notice) (s : State) : State := if c then raiseAll n s else s

/-- Raises a flag to each port that a test picks. -/
def raiseEach (n : Notice) (pick : Port → Bool) (s : State) : State :=
  { s with ports := .build fun p =>
      if pick p then { s.port p with flags := setFlag (s.port p).flags n } else s.port p }

/-- The port holds a flag that is both set and enabled: the ATTN bit (R170). -/
def attn (ps : PortState) : Bool := ps.flags &&& ps.mask != 0

/-- The level of a port's attention line: true while it is driven low (R171). The line is released
while RESET is asserted (R177). -/
def attentionLow (s : State) (p : Port) : Bool := !s.resetLow && attn (s.port p)

end Sys2Proof.Machine
end

