-- ==== Sys2Proof/Machine/Ops.lean ====
section
/-!
DEFINITION. Machine/Ops.lean: the operations that several commands share: the answer of a command,
the lock test (R47), the selection concerned (R49), the course of a frame through its port and the
intake (R163, R164, R166, R169), and the gate of events while RESET is asserted (R177).
-/

namespace Sys2Proof.Machine

/-! ### Answers -/

/-- What the intake makes of a command: its outcome, the data it returns, the state it leaves. -/
structure Answer where
  outcome : CmdOutcome
  data : List Byte
  state : State

/-- A command refused: no data and no change of state (R170). -/
def refuse (o : CmdOutcome) (s : State) : Answer := ⟨o, [], s⟩

/-- A command taken with an outcome and no data. -/
def taken (o : CmdOutcome) (s : State) : Answer := ⟨o, [], s⟩

/-- A read command: OK with data. -/
def answered (data : List Byte) (s : State) : Answer := ⟨.ok, data, s⟩

/-! ### The lock test -/

/-- The resource is held by a port other than `p`. -/
def heldByOther (s : State) (p : Port) (r : Resource) : Bool :=
  match s.mes.locks.get r with
  | none => false
  | some h => h != p

/-- Some resource of the list is held by a port other than `p` (R47). -/
def lockedOut (s : State) (p : Port) (rs : List Resource) : Bool := rs.any (heldByOther s p)

/-- The checks that come first, in the order of outcome precedence: LOCKED, then PARAM (R170). -/
def checked (p : Port) (rs : List Resource) (inRange : Bool) (s : State) (rest : Answer) : Answer :=
  if lockedOut s p rs then refuse .locked s
  else if !inRange then refuse .param s
  else rest

/-- The layers of a set as resources of the lock table. -/
def layerResources (l : LayerSet) : List Resource :=
  (if l.bkgd then [.bkgd] else []) ++ (Keyer.all.filter l.keyers.get).map .keyer

/-- The selection of the in-flight record; empty while it is absent (R60). -/
def inFlightSelection (s : State) : LayerSet :=
  match s.tc.inFlight with
  | some r => r.selection
  | none => noLayers

/-- The selection concerned for CUT, AUTO and lever values (R49). -/
def selectionConcerned (s : State) : LayerSet :=
  match s.tc.mode with
  | .idle => s.mes.next.selection
  | .auto | .manual => inFlightSelection s

/-- The resources CUT, AUTO and lever values touch (R48). -/
def transResources (s : State) : List Resource :=
  .trans :: layerResources (selectionConcerned s)

/-- The resource of a keyer named by number; a number that names no keyer names no resource (R48). -/
def keyerResources (keyer : Byte) : List Resource :=
  match keyerOf keyer with
  | some k => [.keyer k]
  | none => []

/-- The four keyer resources. -/
def allKeyerResources : List Resource := Keyer.all.map .keyer

/-! ### Inputs and roles -/

/-- The background input that serves as PGM (R57). -/
def pgmInput (r : Role) : InputId :=
  match r with
  | .bga => .bga
  | .bgb => .bgb

/-- The background input that serves as PST (R57). -/
def pstInput (r : Role) : InputId :=
  match r with
  | .bga => .bgb
  | .bgb => .bga

def Role.swap : Role → Role
  | .bga => .bgb
  | .bgb => .bga

/-- The input a bus name addresses under the program role (R23). -/
def busInput (role : Role) : BusName → InputId
  | .pgm => pgmInput role
  | .pst => pstInput role
  | .fill k => .fill k
  | .key k => .key k

/-- The in-flight flag of an input record (R19). -/
def recInFlight (i : InputRec) : Bool := i.requested != i.issued || i.awaiting

def State.input (s : State) (i : InputId) : InputRec := s.bi.inputs.get i

/-- Replaces one input record. -/
def State.setInput (s : State) (i : InputId) (rec : InputRec) : State :=
  { s with bi := { s.bi with inputs := s.bi.inputs.set i rec } }

/-- Writes a requested source (R23). -/
def request (i : InputId) (src : Source) (s : State) : State :=
  s.setInput i { s.input i with requested := src }

/-- The inputs a keyer of a given type uses (R68, R114). -/
def keyerInputs (k : Keyer) : KeyType → List InputId
  | .luma => [.fill k]
  | .linear => [.fill k, .key k]

/-- Some input of the list is in flight. -/
def anyInFlight (s : State) (is : List InputId) : Bool := is.any fun i => recInFlight (s.input i)

/-! ### The course of a frame -/

/-- A port takes a frame: RESET is not asserted and the port is in RECEIVING (R166, R177). -/
def receiving (s : State) (p : Port) : Bool :=
  !s.resetLow && decide ((s.port p).phase = .receiving)

/-- A port reads its frame as a command frame: it takes a frame and is not streaming (R167). -/
def takesCommand (s : State) (p : Port) : Bool := receiving s p && !(s.port p).streaming

/-- A port reads its frame as a stream frame (R167). -/
def takesStream (s : State) (p : Port) : Bool := receiving s p && (s.port p).streaming

/-- The port after a port: CP0 comes after CP2. -/
def portAfter : Port → Port
  | .cp0 => .cp1
  | .cp1 => .cp2
  | .cp2 => .cp0

/-- The order in which the intake grants the ports' waiting commands, one per port, given the last
granted port (R169). -/
def grantOrder (last : Port) : List Port := [portAfter last, portAfter (portAfter last), last]

/-- The intake grants a command of a port (R169). -/
def grant (p : Port) (s : State) : State := { s with lastGranted := p }

/-- The frame is complete and its answer is held for the response: AWAITING (R166). -/
def reply (p : Port) (o : CmdOutcome) (data : List Byte) (s : State) : State :=
  s.setPort p { s.port p with phase := .awaiting, reply := some ⟨o, data⟩, response := [] }

/-- A complete command reaches the intake, is dealt with, and its answer goes to its port. -/
def intake (p : Port) (deal : State → Answer) (s : State) : State :=
  let a := deal (grant p s)
  reply p a.outcome a.data a.state

/-- The intake is free: no port holds a command that waits (R169). -/
def intakeFree (s : State) : Bool := Port.all.all fun p => (s.port p).waiting.isEmpty

/-- A command joins those that wait at its port: AWAITING, with no answer yet (R166, R169). -/
def joinWaiting (p : Port) (f : WaitingFrame) (s : State) : State :=
  let ps := s.port p
  s.setPort p { ps with phase := .awaiting, reply := none, response := [], waiting := ps.waiting ++ [f] }

/-- A port passes a complete command to the intake: a free intake takes it at once, and otherwise it joins
those that wait and is ordered at a later grant (R169; notes/assumptions/5.md). -/
def passToIntake (p : Port) (f : WaitingFrame) (deal : State → Answer) (s : State) : State :=
  if intakeFree s then intake p deal s else joinWaiting p f s

/-- A whole command frame: the port compares the check byte (R164), then passes the command to the intake
(R169). A port that does not read a command frame leaves everything as it stands
(notes/assumptions/4.md). -/
def commandFrame (p : Port) (covered : List Byte) (chk : Byte) (deal : State → Answer) (s : State) :
    State :=
  if takesCommand s p then
    if crc8 covered = chk then passToIntake p ⟨false, covered⟩ deal s else reply p .check [] s
  else s

/-- A frame whose length its own bytes give (R165): the check byte stands after `n` bytes of the body,
and later bytes are extra. A body too short for its check byte is no complete frame. -/
def sizedFrame (p : Port) (head : List Byte) (n : Nat) (body : List Byte) (deal : State → Answer)
    (s : State) : State :=
  match body[n]? with
  | some chk => commandFrame p (head ++ body.take n) chk deal s
  | none => s

/-- While RESET is asserted the engine is held at its power-on value, and no event acts (R177). -/
def unlessReset (f : State → State) (s : State) : State := if s.resetLow then s else f s

end Sys2Proof.Machine
end

