-- ==== Sys2Proof/Machine/Locks.lean ====
section
/-!
DEFINITION. Machine/Locks.lean: LOCK and UNLOCK (R50, R51, R53), and freeing what a port holds (R52).
-/

namespace Sys2Proof.Machine

/-- A resource mask is in range: it names a resource and carries no bit beyond the seven (R50). -/
def maskInRange (mask : Byte) : Bool := decide (0 < mask.toNat) && decide (mask.toNat < 128)

/-- The mask names the resource. -/
def maskNames (mask : Byte) (r : Resource) : Bool := mask.getLsbD (resourceBit r)

/-- The port holds the resource. -/
def holdsResource (s : State) (p : Port) (r : Resource) : Bool := s.mes.locks.get r == some p

/-- Replaces the lock table. -/
def setLocks (locks : PerResource (Option Port)) (s : State) : State :=
  { s with mes := { s.mes with locks := locks } }

def dealLock (mask : Byte) (p : Port) (s : State) : Answer :=
  checked p (maskResources mask) (maskInRange mask) s <|
    if (maskResources mask).all (holdsResource s p) then taken .ignored s
    else
      taken .ok (raiseAll .locks (setLocks
        (.build fun r => if maskNames mask r then some p else s.mes.locks.get r) s))

def execLock (p : Port) (mask chk : Byte) (s : State) : Host.Outcome State Fault Refusal :=
  .next (commandFrame p [0x19#8, mask] chk (dealLock mask p) s)

/-- The port holds at least one of the resources a test picks. -/
def holdsAny (s : State) (p : Port) (pick : Resource → Bool) : Bool :=
  Resource.all.any fun r => pick r && holdsResource s p r

/-- Frees the resources that a test picks and the port holds, and raises LOCKS if one was freed
(R51, R52, R53). -/
def freeLocks (p : Port) (pick : Resource → Bool) (s : State) : State :=
  raiseAllWhen (holdsAny s p pick) .locks
    (setLocks (.build fun r =>
      if pick r && holdsResource s p r then none else s.mes.locks.get r) s)

def dealUnlock (mask : Byte) (p : Port) (s : State) : Answer :=
  checked p [] (maskInRange mask) s <|
    if holdsAny s p (maskNames mask) then taken .ok (freeLocks p (maskNames mask) s)
    else taken .ignored s

def execUnlock (p : Port) (mask chk : Byte) (s : State) : Host.Outcome State Fault Refusal :=
  .next (commandFrame p [0x1A#8, mask] chk (dealUnlock mask p) s)

/-- Some resource is held by some port. -/
def anyHeld (s : State) : Bool := Resource.all.any fun r => (s.mes.locks.get r).isSome

/-- Frees every resource, and raises LOCKS if one was held (R52, R53). -/
def freeAllLocks (s : State) : State :=
  raiseAllWhen (anyHeld s) .locks (setLocks (.const none) s)

end Sys2Proof.Machine
end

