-- ==== Sys2Proof/Machine/Timing.lean ====
section
/-!
DEFINITION. Machine/Timing.lean: the reference timing generator (chapter 1): timing the reference, the
evaluation at a switch point, the pending timing setup, and the commands TIMING SETUP (R14) and the
reference events (R4, R6). SET FRAME COUNT stands with the cue queue, which it prunes.
-/

namespace Sys2Proof.Machine

/-! ### Time in engine samples -/

/-- The time of an event `t` samples after the latest switch point. -/
def timeAt (r : Rtg) (t : Nat) : Nat := r.frameStart + t

/-- The time of the switch point that ends the frame in progress (R2, R10). -/
def switchTime (r : Rtg) : Nat := r.frameStart + r.frameLen

/-- S: the start of line 1 of the engine frame that the next switch point lies in, six lines before it
(R6, R28). -/
def lineOne (r : Rtg) : Int := (switchTime r : Int) - (switchLead r.raster : Int)

/-! ### Reference events (R4, R6) -/

/-- A reference line sync edge at time `now` closes a line period when an earlier edge began one. -/
def timeLine (now : Nat) (r : Rtg) : Rtg :=
  match r.lastEdge with
  | none => { r with lastEdge := some now }
  | some prev =>
    { r with lastEdge := some now, linePeriods := (now - prev) :: r.linePeriods.take 3 }

/-- The measured line period (R4): the floored mean of the four most recent line periods, at most
65535; 0 until four lines have been timed. -/
def measuredPeriod (r : Rtg) : Nat :=
  match r.linePeriods with
  | [a, b, c, d] => min ((a + b + c + d) / 4) 65535
  | _ => 0

def execReferenceLineSync (t : Nat) (s : State) : Host.Outcome State Fault Refusal :=
  .next (unlessReset (fun s => { s with rtg := timeLine (timeAt s.rtg t) s.rtg }) s)

def execReferenceFrameMarker (t : Nat) (s : State) : Host.Outcome State Fault Refusal :=
  .next (unlessReset
    (fun s => { s with rtg := { s.rtg with refMarker := some (timeAt s.rtg t) } }) s)

/-! ### Measuring the reference (R5, R6) -/

/-- The reference condition of the frame interval just ended (R5). -/
def referenceCondition (r : Rtg) : RefCond :=
  match r.refMarker with
  | none => .absent
  | some _ =>
    if measuredPeriod r ≤ lineSamples r.raster + 2 ∧ lineSamples r.raster ≤ measuredPeriod r + 2
    then .valid else .mismatch

/-- A raw difference normalised into -F/2 .. F/2 - 1 by adding or subtracting F (R6). -/
def normalisePhase (raw : Int) (f : Nat) : Int :=
  (raw + ((f / 2 : Nat) : Int)) % (f : Int) - ((f / 2 : Nat) : Int)

/-- The exact phase error: the latest marker's time minus S, normalised (R6). -/
def exactPhase (r : Rtg) : Int :=
  match r.refMarker with
  | some m => normalisePhase ((m : Int) - lineOne r) (frameSamples r.raster)
  | none => 0

/-- Saturation to -32767..+32767 (R6). -/
def saturatePhase (e : Int) : Int := max (-32767) (min 32767 e)

/-! ### Evaluation (R7 to R12) -/

/-- The trim step of R12: at the clamp in the direction of the step, the flag is set instead. -/
def stepTrim (e : Int) (r : Rtg) : Rtg :=
  if 1 < e then
    if r.trim ≤ -200 then { r with trimLimit := true }
    else { r with trim := r.trim - 1, trimLimit := false }
  else if e < -1 then
    if 200 ≤ r.trim then { r with trimLimit := true }
    else { r with trim := r.trim + 1, trimLimit := false }
  else { r with trimLimit := false }

/-- The counts that R7 and R15 clear. -/
def clearCounts (r : Rtg) : Rtg := { r with miss := 0, inWindow := 0, outCount := 0, trimLimit := false }

/-- Evaluation with enable on and an invalid reference (R8). -/
def evaluateInvalid (r : Rtg) : Rtg :=
  let miss := min 3 (r.miss + 1)
  let lock := if miss = 3 then .holdover else r.lock
  { r with miss := miss, inWindow := 0, outCount := 0, trimLimit := false, lock := lock }

/-- SEEKING with a VALID reference (R9). -/
def evaluateSeeking (e : Int) (r : Rtg) : Rtg :=
  if 8 < e.natAbs then { r with inWindow := 0 }
  else if r.inWindow + 1 < 4 then { r with inWindow := r.inWindow + 1 }
  else { r with lock := .locked, inWindow := 0, outCount := 0 }

/-- LOCKED with a VALID reference (R11). -/
def evaluateLocked (e : Int) (r : Rtg) : Rtg :=
  if e.natAbs ≤ 8 then { r with outCount := 0 }
  else if r.outCount + 1 < 2 then { r with outCount := r.outCount + 1 }
  else { r with lock := .seeking, outCount := 0, inWindow := 0 }

/-- Evaluation with enable on and a VALID reference, from SEEKING or LOCKED after the miss count is
cleared and a HOLDOVER has become SEEKING (R9, R11, R12). -/
def evaluateValid (e : Int) (r : Rtg) : Rtg :=
  match r.lock with
  | .locked => stepTrim e (evaluateLocked e { r with miss := 0 })
  | .free | .seeking | .holdover =>
    stepTrim e (evaluateSeeking e { r with miss := 0, lock := .seeking })

/-- The evaluation with enable on in a state other than FREE. -/
def evaluateOn (r : Rtg) : Rtg :=
  match r.cond with
  | .valid => evaluateValid r.phaseErr r
  | .absent | .mismatch => evaluateInvalid r

/-- The effect of the enable in force on the state (R7): off gives FREE with the counts cleared, and a
FREE state with enable on becomes SEEKING. -/
def applyEnable (r : Rtg) : Rtg :=
  if r.enable then (if r.lock = .free then { r with lock := .seeking } else r)
  else clearCounts { r with lock := .free }

/-- Measures the reference condition, and the phase error where the reference is VALID (R5, R6). -/
def measureReference (r : Rtg) : Rtg :=
  let r := { r with cond := referenceCondition r }
  if r.cond = .valid then { r with phaseErr := saturatePhase (exactPhase r) } else r

/-- The whole reference evaluation of a switch point (R5 to R12). -/
def evaluateReference (r : Rtg) : Rtg :=
  let r := measureReference (applyEnable r)
  if r.enable then evaluateOn r else r

/-- A crash-lock is made at this evaluation: enable on, a SEEKING evaluation (HOLDOVER and FREE become
SEEKING there), VALID, and a phase error beyond 64 (R9, R10). -/
def crashLocks (r : Rtg) : Bool :=
  r.enable && decide (referenceCondition r = .valid) && decide (r.lock ≠ .locked)
    && decide (64 < (exactPhase r).natAbs)

/-! ### The pending timing setup (R14, R15) -/

/-- The pending setup changes the raster. -/
def rasterChanges (r : Rtg) : Bool :=
  match r.pendingSetup with
  | some ts => ts.raster != r.raster
  | none => false

/-- The pending setup takes effect and is cleared (R15). A raster change sets the condition, the counts
and the state as R15 lists and discards the timed lines; otherwise the enable acts as R7 gives. -/
def applyTimingSetup (r : Rtg) : Rtg :=
  match r.pendingSetup with
  | none => r
  | some ts =>
    let r' := { r with enable := ts.enable, pendingSetup := none }
    if ts.raster = r.raster then applyEnable r'
    else
      clearCounts { r' with
        raster := ts.raster, cond := .absent, linePeriods := [], lastEdge := none
        lock := if ts.enable then .seeking else .free }

/-- The RTG's work at a switch point: the counter, the pending setup, the evaluation unless the raster
changed, and the start of the next frame with its length (R2, R3, R10, R15). -/
def rtgSwitch (r : Rtg) : Rtg :=
  let applied := applyTimingSetup r
  let evaluated := if rasterChanges r then applied else evaluateReference applied
  let crash := !rasterChanges r && crashLocks applied
  let length := frameSamples evaluated.raster
  { evaluated with
    counter := r.counter + 1
    refMarker := none
    frameStart := switchTime r
    prevStart := r.frameStart
    frameLen := if crash then ((length : Int) + exactPhase applied).toNat else length }

/-- The RTG hands the bus inputs a settling directive: a crash-lock or a raster change (R10, R15). -/
def settleDirective (r : Rtg) : Bool := rasterChanges r || crashLocks (applyTimingSetup r)

/-! ### TIMING SETUP (R14) -/

def timingInRange (raster enable : Byte) : Bool := (rasterOf raster).isSome && (boolOf enable).isSome

/-- Replaces the pending timing setup. -/
def setPendingTiming (ts : Option TimingPair) (s : State) : State :=
  { s with rtg := { s.rtg with pendingSetup := ts } }

def dealTimingSetup (raster enable : Byte) (p : Port) (s : State) : Answer :=
  checked p [.setup] (timingInRange raster enable) s <|
    match rasterOf raster, boolOf enable with
    | some r, some on =>
      let inForce := r == s.rtg.raster && on == s.rtg.enable
      if r ≠ s.rtg.raster ∧ s.tc.mode ≠ .idle then refuse .busy s
      else if inForce && s.rtg.pendingSetup.isNone then taken .ignored s
      else if inForce then taken .ok (setPendingTiming none s)
      else taken .ok (setPendingTiming (some ⟨r, on⟩) s)
    | _, _ => refuse .param s

def execTimingSetup (p : Port) (raster enable chk : Byte) (s : State) :
    Host.Outcome State Fault Refusal :=
  .next (commandFrame p [0x40#8, raster, enable] chk (dealTimingSetup raster enable p) s)

end Sys2Proof.Machine
end

