-- ==== Sys2Proof/Machine/BusInputs.lean ====
section
/-!
DEFINITION. Machine/BusInputs.lean: the switch pipeline of the bus inputs and the crosspoint link
(R24 to R26), alignment, settling and faults (R28 to R33), and the BI's part of ENGINE RESET (R35),
with the events ISSUE, GO_LIVE and INPUT_FRAME_MARKER.
-/

namespace Sys2Proof.Machine

/-- Changes every input record. -/
def mapInputs (f : InputRec → InputRec) (s : State) : State :=
  { s with bi := { s.bi with inputs := s.bi.inputs.map f } }

/-! ### Going live (R25, R30, R35) -/

/-- An awaiting issue goes live: an external source settles for two, an internal one shows INTERNAL. -/
def goLiveInput (i : InputRec) : InputRec :=
  if i.awaiting then
    if isExternal i.issued then { i with live := i.issued, awaiting := false, settle := 2 }
    else { i with live := i.issued, awaiting := false, settle := 0, status := .internal }
  else i

/-- At the switch point after an ENGINE RESET every input's live source becomes BLACK (R35). -/
def blackInput (i : InputRec) : InputRec := { i with live := black, settle := 0 }

/-- The BI makes awaiting issues live; with an ENGINE RESET pending it makes every input BLACK. DESIGN CHOICE:
the BI remembers a taken ENGINE RESET through the controller's pending engine reset alone, so
ENGINE_RESET_APPLY as a row of its own ends it for the BI too (notes/assumptions/24.md). -/
def goLiveAll (s : State) : State :=
  mapInputs (if s.tc.resetPending then blackInput else goLiveInput) s

def execGoLive (s : State) : Host.Outcome State Fault Refusal :=
  .next (unlessReset goLiveAll s)

/-- A settling directive restarts the settling of an input with an external live source (R30). -/
def settleInput (i : InputRec) : InputRec := if isExternal i.live then { i with settle := 2 } else i

/-- Applies a settling directive to every input. -/
def settleAll (directive : Bool) (s : State) : State :=
  if directive then mapInputs settleInput s else s

/-! ### Alignment and fault (R28, R29, R32) -/

/-- The advance of a frame marker at time `m` against S, in whole lines, at most 15 (R28). -/
def advanceOf (lineOneTime : Int) (lineLen m : Nat) : Nat :=
  min 15 ((lineOneTime - (m : Int)).toNat / lineLen)

/-- The measurement of an input with an external live source at the switch point that ends the frame
of `r`: absent when no marker arrived in the last two frame intervals (R28). -/
def measureInput (r : Rtg) (i : InputRec) : Option Nat :=
  match i.marker with
  | none => none
  | some m =>
    if m < r.prevStart then none else some (advanceOf (lineOne r) (lineSamples r.raster) m)

/-- The status of a settled external input (R29). -/
def settledStatus (lMin lMax : Nat) (measured : Option Nat) : InputStatus :=
  match measured with
  | none => .absent
  | some a => if a < lMin then .late else if lMax < a then .early else .aligned

/-- The measurement lies outside the alignment window, or is absent (R32). -/
def outsideWindow (lMin lMax : Nat) (measured : Option Nat) : Bool :=
  match measured with
  | none => true
  | some a => decide (a < lMin) || decide (lMax < a)

/-- Writes a status; a status other than SETTLING is also the last judged status (R29). -/
def setStatus (st : InputStatus) (i : InputRec) : InputRec :=
  { i with status := st, lastJudged := if st = .settling then i.lastJudged else st }

/-- Alignment judgement and fault decision of one input (R28, R29, R32). -/
def judgeInput (r : Rtg) (lMin lMax : Nat) (i : InputRec) : InputRec :=
  if isExternal i.live then
    let measured := measureInput r i
    let i := { i with advance := measured, faulted := outsideWindow lMin lMax measured }
    if i.settle = 0 then setStatus (settledStatus lMin lMax measured) i
    else setStatus .settling { i with settle := i.settle - 1 }
  else setStatus .internal { i with advance := none, settle := 0, faulted := false }

/-- The judgement of every input at the switch point that ends the frame of `r`. -/
def judgeAll (r : Rtg) (s : State) : State := mapInputs (judgeInput r s.bi.lMin s.bi.lMax) s

/-- LATE, EARLY or ABSENT (R33). -/
def badStatus : InputStatus → Bool
  | .late | .early | .absent => true
  | .aligned | .settling | .internal => false

/-- The status change that raises INPUT when the input contributes (R33): the new status is not
SETTLING and differs from the status last judged before, and one of the two is LATE, EARLY or
ABSENT. -/
def alignmentChanged (before after : InputRec) : Bool :=
  after.status != .settling && after.status != before.lastJudged
    && (badStatus after.status || badStatus before.lastJudged)

/-! ### Issuing (R24, R26) -/

/-- An input whose request waits to be issued (R24). -/
def waitsForIssue (i : InputRec) : Bool := i.requested != i.issued

/-- Issues a waiting request: the requested source becomes issued and awaits going live. -/
def issueInput (i : InputRec) : InputRec :=
  if waitsForIssue i then { i with issued := i.requested, awaiting := true } else i

/-- The crosspoint record that an issue on an input sends: an external source that differs from last
sent (R26). -/
def recordFor (s : State) (i : InputId) : Option XpRecord :=
  let inp := s.input i
  if waitsForIssue inp && isExternal inp.requested
      && s.xl.lastSent.get i != some inp.requested then some ⟨i, inp.requested⟩
  else none

/-- The last-sent field of an input after its issue (R26). -/
def lastSentAfter (s : State) (i : InputId) : Option Source :=
  match recordFor s i with
  | some x => some x.source
  | none => s.xl.lastSent.get i

/-- One value for each input computed from the input. -/
def buildInputs {α : Type} (f : InputId → α) : PerInput α :=
  ⟨f .bga, f .bgb, .build fun k => f (.fill k), .build fun k => f (.key k)⟩

/-- The BI issues every waiting request when XREADY is seen asserted, with one burst of crosspoint
records in ascending input number; otherwise it issues none (R24, R26). -/
def issueAll (xready : Bool) (s : State) : State :=
  if xready then
    { mapInputs issueInput s with
      xl := ⟨buildInputs (lastSentAfter s), InputId.all.filterMap (recordFor s)⟩ }
  else { s with xl := { s.xl with burst := [] } }

def execIssue (xready : Bool) (s : State) : Host.Outcome State Fault Refusal :=
  .next (unlessReset (issueAll xready) s)

/-- The three bytes of a crosspoint record on the link (R26, R180). -/
def recordBytes (x : XpRecord) : List Byte :=
  let covered := [byteOf (inputNumber x.input), sourceByte x.source]
  covered ++ [crc8 covered]

/-- The bytes of the burst sent at the latest switch point; XLF is high while there are any (R180). -/
def burstBytes (s : State) : List Byte := s.xl.burst.flatMap recordBytes

/-! ### Arriving frame markers (R28) -/

def execInputFrameMarker (input : InputId) (t : Nat) (s : State) :
    Host.Outcome State Fault Refusal :=
  .next (unlessReset
    (fun s => s.setInput input { s.input input with marker := some (timeAt s.rtg t) }) s)

/-! ### The BI's work at a switch point -/

/-- Going live, the settling directive, the judgement and the issue, in that order (section 2.4), at
the switch point that ends the frame of `r`. -/
def inputsSwitch (r : Rtg) (xready : Bool) (s : State) : State :=
  issueAll xready (judgeAll r (settleAll (settleDirective r) (goLiveAll s)))

/-- ENGINE RESET on the bus inputs and the crosspoint link, at once (R35). -/
def inputsEngineReset (s : State) : State :=
  { mapInputs (fun i => { i with requested := black, issued := black, awaiting := false }) s with
    xl := { s.xl with lastSent := .const none } }

end Sys2Proof.Machine
end

