-- ==== Sys2Proof/Machine/Tally.lean ====
section
/-!
DEFINITION. Machine/Tally.lean: contribution to program and preview (R129, R130), the tally table and
its publication (R131 to R135), and the INPUT notice, which uses contribution (R33).
-/

namespace Sys2Proof.Machine

/-! ### Contribution -/

/-- The keyer contributes to program (R129). -/
def keyerOnProgram (s : State) (k : Keyer) : Bool :=
  if (inFlightSelection s).keyers.get k then s.tc.onAir.get k || decide (0 < s.tc.pos)
  else s.tc.onAir.get k

/-- The keyer's live type is LINEAR. -/
def isLinear (s : State) (k : Keyer) : Bool := (s.mes.live.keyers.get k).type.isLinear

/-- The input contributes to program (R129). -/
def onProgram (s : State) : InputId → Bool
  | .fill k => keyerOnProgram s k
  | .key k => keyerOnProgram s k && isLinear s k
  | i =>
    decide (i = pgmInput s.tc.role) || ((inFlightSelection s).bkgd && decide (0 < s.tc.pos))

/-- The selection of the preview end state (R122, R130). -/
def previewSelection (s : State) : LayerSet :=
  match s.tc.mode with
  | .idle => s.mes.live.selection
  | .auto | .manual => inFlightSelection s

/-- The keyer is on air in the preview end state (R122). -/
def onAirAtEnd (s : State) (k : Keyer) : Bool :=
  xor ((previewSelection s).keyers.get k) (s.tc.onAir.get k)

/-- The background input of the preview end state (R122). -/
def backgroundAtEnd (s : State) : InputId :=
  if (previewSelection s).bkgd then pstInput s.tc.role else pgmInput s.tc.role

/-- The input contributes to preview (R130). -/
def onPreview (s : State) : InputId → Bool
  | .fill k => onAirAtEnd s k
  | .key k => onAirAtEnd s k && isLinear s k
  | i => decide (i = backgroundAtEnd s)

/-! ### The table (R128, R131, R132) -/

/-- The layer through which an input reaches program. -/
def inputInLayer (k : Keyer) : InputId → Bool
  | .fill l | .key l => decide (l = k)
  | .bga | .bgb => false

/-- An input is a background input. -/
def isBackgroundInput : InputId → Bool
  | .bga | .bgb => true
  | .fill _ | .key _ => false

/-- Some input that a test picks carries the source live. -/
def carriedBy (s : State) (src : Source) (pick : InputId → Bool) : Bool :=
  InputId.all.any fun i => decide ((s.input i).live = src) && pick i

/-- The layers through which a source reaches program (R131). -/
def programLayers (s : State) (src : Source) : LayerSet where
  bkgd := carriedBy s src fun i => onProgram s i && isBackgroundInput i
  keyers := .build fun k => carriedBy s src fun i => onProgram s i && inputInLayer k i

/-- The tally entry of a source (R131, R132). -/
def tallyEntry (s : State) (src : Source) : TallyEntry where
  onProgram := carriedBy s src (onProgram s)
  onPreview := carriedBy s src (onPreview s)
  layers := programLayers s src
  fault := carriedBy s src fun i =>
    (onProgram s i || onPreview s i) && (s.input i).faulted && (s.input i).status != .settling

/-- All source numbers in ascending order. -/
def allSources : List Source := List.finRange 128

/-- The full table derived from the state (R133). -/
def tallyTable (s : State) : Vector TallyEntry 128 :=
  ⟨⟨allSources.map (tallyEntry s)⟩, by simp [allSources]⟩

/-! ### Publication (R134, R135) -/

/-- The sources whose entry differs between two tables, in ascending order (R134). -/
def changedSources (before after : Vector TallyEntry 128) : List Source :=
  allSources.filter fun src => before[src] != after[src]

/-- Adds one changed source to a change list (R135). -/
def noteChange (c : ChangeList) (src : Source) : ChangeList :=
  let moved := c.sources.filter (fun x => x != src) ++ [src]
  if Config.changeListCapacity < moved.length then ⟨moved.tail, true⟩ else ⟨moved, c.overrun⟩

/-- Publishes the table derived from the state in force, with the generation, TALLY and the change
lists following any change (R133, R134, R135). -/
def publishTally (s : State) : State :=
  let table := tallyTable s
  let changed := changedSources s.tu.table table
  if changed.isEmpty then { s with tu := { s.tu with table := table } }
  else
    raiseAll .tally { s with tu :=
      { table := table
        generation := s.tu.generation + 1
        changes := s.tu.changes.map fun c => changed.foldl noteChange c } }

/-! ### The INPUT notice (R33) -/

/-- Raises INPUT when an input whose status changed since `before` contributes to program or preview in
the frame that begins (R33). -/
def inputNotice (before : PerInput InputRec) (s : State) : State :=
  raiseAllWhen
    (InputId.all.any fun i =>
      alignmentChanged (before.get i) (s.input i) && (onProgram s i || onPreview s i)) .input s

end Sys2Proof.Machine
end

