-- ==== Sys2Proof/Machine/Reads.lean ====
section
/-!
DEFINITION. Machine/Reads.lean: the read commands of the M/E state, the RTG, the bus inputs, the tally
unit, the composition pipeline and the ports (R16, R34, R54, R125, R136, R137, R172), in the layouts
of R182. CUE LIST and SCENE READ stand with their blocks.
-/

namespace Sys2Proof.Machine

/-! ### STATE READ (R54) -/

/-- The two bits of a keyer's pending key cut (R182). -/
def keyCutCode (kc : Option KeyCut) : Nat :=
  match kc with
  | none => 0
  | some c => if c.target then 1 else 2

/-- The on-air mask: a layer mask whose bit 0 is 0. -/
def onAirMask (flags : PerKeyer Bool) : Byte := layersCode ⟨false, flags⟩

/-- The seven lock-table bytes, in table order. -/
def lockBytes (locks : PerResource (Option Port)) : List Byte :=
  Resource.all.map fun r => portCode (locks.get r)

/-- The 26 bytes of STATE READ (R182). -/
def stateBytes (s : State) : List Byte :=
  [modeCode s.tc.mode] ++ be16n s.tc.pos
    ++ [roleCode s.tc.role, onAirMask s.tc.onAir, layersCode (inFlightSelection s),
      layersCode s.mes.next.selection, typeCode s.mes.next.type]
    ++ be16n s.mes.next.rate
    ++ [portCode s.lu.holder, mainCode s.tc.main,
      byteOf (keyCutCode s.tc.keyCuts.k1 + 4 * keyCutCode s.tc.keyCuts.k2
        + 16 * keyCutCode s.tc.keyCuts.k3 + 64 * keyCutCode s.tc.keyCuts.k4),
      boolCode s.tc.sceneCut.isSome]
    ++ be32 s.rtg.counter ++ [lockCode s.rtg.lock] ++ lockBytes s.mes.locks

def dealStateRead (s : State) : Answer := answered (stateBytes s) s

def execStateRead (p : Port) (chk : Byte) (s : State) : Host.Outcome State Fault Refusal :=
  .next (commandFrame p [0x01#8] chk dealStateRead s)

/-! ### TIMING READ (R16) -/

/-- The 13 bytes of TIMING READ (R182). -/
def timingBytes (r : Rtg) : List Byte :=
  [lockCode r.lock, byteOf r.raster.val,
    byteOf (r.enable.toNat + 2 * condCode r.cond + 8 * r.trimLimit.toNat)]
    ++ be16i r.phaseErr ++ be16i r.trim ++ be16n (measuredPeriod r) ++ be32 r.counter

def dealTimingRead (s : State) : Answer := answered (timingBytes s.rtg) s

def execTimingRead (p : Port) (chk : Byte) (s : State) : Host.Outcome State Fault Refusal :=
  .next (commandFrame p [0x02#8] chk dealTimingRead s)

/-! ### INPUT READ (R34) -/

/-- The six bytes of INPUT READ (R34, R182). DESIGN CHOICE: between an ENGINE RESET and the next switch point
the issued source is the 124 that R35 has set, not the one the latest switch point left
(notes/assumptions/22.md). -/
def inputBytes (i : InputId) (inp : InputRec) : List Byte :=
  [byteOf (inputNumber i), sourceByte inp.requested, sourceByte inp.live,
    byteOf (inp.issued.val + 128 * (recInFlight inp).toNat), statusCode inp.status,
    match inp.advance with
    | some a => byteOf a
    | none => 0xFF#8]

def dealInputRead (input : Byte) (s : State) : Answer :=
  match inputOf input with
  | some i => answered (inputBytes i (s.input i)) s
  | none => refuse .param s

def execInputRead (p : Port) (input chk : Byte) (s : State) : Host.Outcome State Fault Refusal :=
  .next (commandFrame p [0x03#8, input] chk (dealInputRead input) s)

/-! ### TALLY READ and TALLY CHANGES (R136, R137) -/

/-- The window size of a window code (R137). -/
def windowSize (window : Byte) : Nat := 16 * 2 ^ window.toNat

/-- The j-th source returned from a start source in its aligned window (R137). -/
def windowSource (size start j : Nat) : Nat := start - start % size + (start % size + j) % size

/-- The entry of a source number; numbers stay below 128 within a window. -/
def entryAt (table : Vector TallyEntry 128) (n : Nat) : TallyEntry := table[n]?.getD tallyOff

def dealTallyRead (start count window : Byte) (s : State) : Answer :=
  if start.toNat < 128 ∧ 1 ≤ count.toNat ∧ count.toNat ≤ 128 ∧ window.toNat ≤ 3 then
    answered ((List.range count.toNat).map fun j =>
      tallyByte (entryAt s.tu.table (windowSource (windowSize window) start.toNat j))) s
  else refuse .param s

def execTallyRead (p : Port) (start count window chk : Byte) (s : State) :
    Host.Outcome State Fault Refusal :=
  .next (commandFrame p [0x04#8, start, count, window] chk (dealTallyRead start count window) s)

/-- The data of TALLY CHANGES (R136, R182). -/
def changesBytes (generation : Half) (c : ChangeList) : List Byte :=
  be16 generation ++ [boolCode c.overrun, byteOf c.sources.length] ++ c.sources.map sourceByte

/-- Replaces a port's change list. -/
def setChanges (p : Port) (c : ChangeList) (s : State) : State :=
  { s with tu := { s.tu with changes := s.tu.changes.set p c } }

def dealTallyChanges (p : Port) (s : State) : Answer :=
  answered (changesBytes s.tu.generation (s.tu.changes.get p)) (setChanges p ⟨[], false⟩ s)

def execTallyChanges (p : Port) (chk : Byte) (s : State) : Host.Outcome State Fault Refusal :=
  .next (commandFrame p [0x05#8] chk (dealTallyChanges p) s)

/-! ### CLIP READ (R125) -/

def dealClipRead (s : State) : Answer :=
  answered (be24n s.cmp.clipCount ++ [boolCode s.cmp.sticky])
    { s with cmp := { s.cmp with sticky := false } }

def execClipRead (p : Port) (chk : Byte) (s : State) : Host.Outcome State Fault Refusal :=
  .next (commandFrame p [0x06#8] chk dealClipRead s)

/-! ### NOTICE READ (R172) -/

def dealNoticeRead (p : Port) (s : State) : Answer :=
  answered (be16 (s.port p).flags) (s.setPort p { s.port p with flags := 0 })

def execNoticeRead (p : Port) (chk : Byte) (s : State) : Host.Outcome State Fault Refusal :=
  .next (commandFrame p [0x09#8] chk (dealNoticeRead p) s)

end Sys2Proof.Machine
end

