-- ==== Sys2Proof/Machine/Setups.lean ====
section
/-!
DEFINITION. Machine/Setups.lean: the bus and setup commands: SELECT BUS (R22, R23), the commands that
write the next copy (R21, R41 to R46, R105, R106), and ALIGN SETUP (R31).
-/

namespace Sys2Proof.Machine

/-- Changes the next copy of the setups (R37). -/
def mapNext (f : Setup → Setup) (s : State) : State :=
  { s with mes := { s.mes with next := f s.mes.next } }

/-- Changes one keyer's record in a setup copy. -/
def setKeyer (k : Keyer) (rec : KeyerSetup) (st : Setup) : Setup :=
  { st with keyers := st.keyers.set k rec }

/-- OK or IGNORED: a command that would write what already stands changes nothing (R170). -/
def unlessSame (same : Bool) (s' s : State) : Answer :=
  if same then taken .ignored s else taken .ok s'

/-! ### SELECT BUS (R22, R23) -/

/-- The resource a bus code touches (R48). -/
def busResources (bus : Byte) : List Resource :=
  match busOf bus with
  | some .pgm | some .pst => [.bkgd]
  | some (.fill k) | some (.key k) => [.keyer k]
  | none => []

def selectBusInRange (bus src : Byte) : Bool := (busOf bus).isSome && (sourceOf src).isSome

/-- A bus name is one of the two background roles. -/
def BusName.isBackground : BusName → Bool
  | .pgm | .pst => true
  | .fill _ | .key _ => false

def dealSelectBus (bus src : Byte) (p : Port) (s : State) : Answer :=
  checked p (busResources bus) (selectBusInRange bus src) s <|
    match busOf bus, sourceOf src with
    | some b, some x =>
      if b.isBackground && (inFlightSelection s).bkgd then refuse .busy s
      else
        let i := busInput s.tc.role b
        unlessSame (x == (s.input i).requested) (request i x s) s
    | _, _ => refuse .param s

def execSelectBus (p : Port) (bus source chk : Byte) (s : State) :
    Host.Outcome State Fault Refusal :=
  .next (commandFrame p [0x10#8, bus, source] chk (dealSelectBus bus source p) s)

/-! ### SET NEXT and SET RATE (R44, R45) -/

def setNextInRange (layers type : Byte) : Bool := (selectionOf layers).isSome && (typeOf type).isSome

def dealSetNext (layers type : Byte) (p : Port) (s : State) : Answer :=
  checked p [.trans] (setNextInRange layers type) s <|
    match selectionOf layers, typeOf type with
    | some sel, some t =>
      unlessSame (sel == s.mes.next.selection && t == s.mes.next.type)
        (mapNext (fun n => { n with selection := sel, type := t }) s) s
    | _, _ => refuse .param s

def execSetNext (p : Port) (layers type chk : Byte) (s : State) :
    Host.Outcome State Fault Refusal :=
  .next (commandFrame p [0x11#8, layers, type] chk (dealSetNext layers type p) s)

def dealSetRate (rate : Half) (p : Port) (s : State) : Answer :=
  checked p [.trans] true s <|
    if 999 < rate.toNat then taken .clamped (mapNext (fun n => { n with rate := 999 }) s)
    else
      unlessSame (rate.toNat == s.mes.next.rate)
        (mapNext (fun n => { n with rate := rate.toNat }) s) s

def execSetRate (p : Port) (rate : Half) (chk : Byte) (s : State) :
    Host.Outcome State Fault Refusal :=
  .next (commandFrame p (0x12#8 :: be16 rate) chk (dealSetRate rate p) s)

/-! ### KEY SETUP and KEY CROP (R41, R42) -/

def keySetupInRange (keyer flags : Byte) (clip gain : Half) : Bool :=
  (keyerOf keyer).isSome && decide (flags.toNat < 4) && decide (clip.toNat ≤ 1023)
    && decide (gain.toNat ≤ 4095)

def dealKeySetup (keyer flags : Byte) (clip gain opacity : Half) (p : Port) (s : State) : Answer :=
  checked p (keyerResources keyer) (keySetupInRange keyer flags clip gain) s <|
    match keyerOf keyer with
    | some k =>
      let old := s.mes.next.keyers.get k
      let new := { old with
        type := keyTypeOf (flags.getLsbD 0), invert := flags.getLsbD 1
        clip := clip.toNat, gain := gain.toNat, opacity := min opacity.toNat 4096 }
      let s' := mapNext (setKeyer k new) s
      if 4096 < opacity.toNat then taken .clamped s' else unlessSame (new == old) s' s
    | none => refuse .param s

def execKeySetup (p : Port) (keyer flags : Byte) (clip gain opacity : Half) (chk : Byte)
    (s : State) : Host.Outcome State Fault Refusal :=
  .next (commandFrame p ([0x13#8, keyer, flags] ++ be16 clip ++ be16 gain ++ be16 opacity) chk
    (dealKeySetup keyer flags clip gain opacity p) s)

def keyCropInRange (keyer enable : Byte) : Bool := (keyerOf keyer).isSome && (boolOf enable).isSome

def dealKeyCrop (keyer enable : Byte) (left right top bottom : Half) (p : Port) (s : State) :
    Answer :=
  checked p (keyerResources keyer) (keyCropInRange keyer enable) s <|
    match keyerOf keyer, boolOf enable with
    | some k, some on =>
      let old := s.mes.next.keyers.get k
      let given := { old with
        crop := on, left := left.toNat, right := right.toNat
        top := top.toNat, bottom := bottom.toNat }
      let new := clampCrop s.rtg.raster given
      let s' := mapNext (setKeyer k new) s
      if cropBeyond s.rtg.raster given then taken .clamped s' else unlessSame (new == old) s' s
    | _, _ => refuse .param s

def execKeyCrop (p : Port) (keyer enable : Byte) (left right top bottom : Half) (chk : Byte)
    (s : State) : Host.Outcome State Fault Refusal :=
  .next (commandFrame p ([0x14#8, keyer, enable] ++ be16 left ++ be16 right ++ be16 top ++ be16 bottom)
    chk (dealKeyCrop keyer enable left right top bottom p) s)

/-! ### KEY ORDER (R43) -/

def keyOrderInRange (a b c d : Byte) : Bool := (orderOf a b c d).isSome

def dealKeyOrder (a b c d : Byte) (p : Port) (s : State) : Answer :=
  checked p allKeyerResources (keyOrderInRange a b c d) s <|
    match orderOf a b c d with
    | some o =>
      unlessSame (o == s.mes.next.order) (mapNext (fun n => { n with order := o }) s) s
    | none => refuse .param s

def execKeyOrder (p : Port) (first second third fourth chk : Byte) (s : State) :
    Host.Outcome State Fault Refusal :=
  .next (commandFrame p [0x15#8, first, second, third, fourth] chk
    (dealKeyOrder first second third fourth p) s)

/-! ### WIPE SETUP (R105, R106) -/

/-- The direction a reload gives for a reverse field (R103). -/
def directionOf (reverse : Bool) : Direction := if reverse then .reversed else .normal

def wipeSetupInRange (pattern : Byte) (softness : Half) (rh rv : Byte) (cx cy : Half)
    (flags : Byte) : Bool :=
  (wipeOf pattern softness rh rv cx cy flags).isSome

/-- Writes a wipe setup into the next copy and sets the reload mark (R103, R106). -/
def writeWipe (w : WipeSetup) (s : State) : State :=
  { mapNext (fun n => { n with wipe := w }) s with wg := { s.wg with reload := true } }

def dealWipeSetup (pattern : Byte) (softness : Half) (rh rv : Byte) (cx cy : Half) (flags : Byte)
    (p : Port) (s : State) : Answer :=
  checked p [.trans] (wipeSetupInRange pattern softness rh rv cx cy flags) s <|
    match wipeOf pattern softness rh rv cx cy flags with
    | some w =>
      unlessSame (w == s.mes.next.wipe && !s.wg.reload && s.wg.direction == directionOf w.reverse)
        (writeWipe w s) s
    | none => refuse .param s

def execWipeSetup (p : Port) (pattern : Byte) (softness : Half) (rh rv : Byte) (cx cy : Half)
    (flags chk : Byte) (s : State) : Host.Outcome State Fault Refusal :=
  .next (commandFrame p
    ([0x16#8, pattern] ++ be16 softness ++ [rh, rv] ++ be16 cx ++ be16 cy ++ [flags]) chk
    (dealWipeSetup pattern softness rh rv cx cy flags p) s)

/-! ### MATTE SET (R21) -/

def matteSetInRange (matte : Byte) (y cb cr : Half) : Bool :=
  (matte == 1#8 || matte == 2#8) && decide (y.toNat ≤ 1023) && decide (cb.toNat ≤ 1023)
    && decide (cr.toNat ≤ 1023)

def dealMatteSet (matte : Byte) (y cb cr : Half) (p : Port) (s : State) : Answer :=
  checked p [.setup] (matteSetInRange matte y cb cr) s <|
    let colour : Pixel := ⟨y.setWidth 10, cb.setWidth 10, cr.setWidth 10⟩
    taken .ok <|
      if matte = 1#8 then mapNext (fun n => { n with matte1 := colour }) s
      else mapNext (fun n => { n with matte2 := colour }) s

def execMatteSet (p : Port) (matte : Byte) (y cb cr : Half) (chk : Byte) (s : State) :
    Host.Outcome State Fault Refusal :=
  .next (commandFrame p ([0x17#8, matte] ++ be16 y ++ be16 cb ++ be16 cr) chk
    (dealMatteSet matte y cb cr p) s)

/-! ### LIMITER SETUP (R46) -/

def limiterInRange (yLo yHi cLo cHi : Half) : Bool :=
  decide (yHi.toNat ≤ 1023) && decide (cHi.toNat ≤ 1023) && decide (yLo.toNat ≤ yHi.toNat)
    && decide (cLo.toNat ≤ cHi.toNat)

def dealLimiterSetup (yLo yHi cLo cHi : Half) (p : Port) (s : State) : Answer :=
  checked p [.setup] (limiterInRange yLo yHi cLo cHi) s <|
    let new : Limiter := ⟨yLo.toNat, yHi.toNat, cLo.toNat, cHi.toNat⟩
    unlessSame (new == s.mes.next.limiter) (mapNext (fun n => { n with limiter := new }) s) s

def execLimiterSetup (p : Port) (yLo yHi cLo cHi : Half) (chk : Byte) (s : State) :
    Host.Outcome State Fault Refusal :=
  .next (commandFrame p (0x18#8 :: (be16 yLo ++ be16 yHi ++ be16 cLo ++ be16 cHi)) chk
    (dealLimiterSetup yLo yHi cLo cHi p) s)

/-! ### ALIGN SETUP (R31) -/

def alignInRange (lMin lMax : Byte) : Bool :=
  decide (1 ≤ lMin.toNat) && decide (lMin.toNat ≤ lMax.toNat) && decide (lMax.toNat ≤ 7)

def dealAlignSetup (lMin lMax : Byte) (p : Port) (s : State) : Answer :=
  checked p [.setup] (alignInRange lMin lMax) s <|
    unlessSame (lMin.toNat == s.bi.lMin && lMax.toNat == s.bi.lMax)
      { s with bi := { s.bi with lMin := lMin.toNat, lMax := lMax.toNat } } s

def execAlignSetup (p : Port) (lMin lMax chk : Byte) (s : State) :
    Host.Outcome State Fault Refusal :=
  .next (commandFrame p [0x42#8, lMin, lMax] chk (dealAlignSetup lMin lMax p) s)

end Sys2Proof.Machine
end

