-- ==== Sys2Proof/Machine/WipeGen.lean ====
section
/-!
DEFINITION. Machine/WipeGen.lean: the wipe coefficient (R97 to R102) and the reload of the direction
state (R103). WIPE SETUP stands with the setups, the toggle with completion.
-/

namespace Sys2Proof.Machine

/-- A position normalised to 0..4095 over an extent (R98). -/
def normalised (x extent : Nat) : Nat := x * 4096 / extent

/-- A normalised position after its repeats (R99). -/
def repeated (u n : Nat) : Nat := (u * n) % 4096

/-- The distance of a position from a centre (R100). -/
def centreDistance (u c : Nat) : Nat := if c ≤ u then u - c else c - u

/-- The pattern value w before the direction (R100). -/
def patternValue (w : WipeSetup) (u v : Nat) : Nat :=
  let dx := centreDistance u w.cx
  let dy := centreDistance v w.cy
  match w.pattern with
  | .hbar => u
  | .vbar => v
  | .split => min (2 * dx) 4095
  | .box => min (2 * max dx dy) 4095
  | .diamond => min (dx + dy) 4095

/-- The pattern value after the direction state (R101). -/
def directed (d : Direction) (w : Nat) : Nat :=
  match d with
  | .normal => w
  | .reversed => 4095 - w

/-- The threshold T (R102). -/
def threshold (pos softness : Nat) : Nat := pos * (4096 + softness) / 4096

/-- The coefficient from T and the pattern value (R102). -/
def coefficient (softness t w : Nat) : Nat :=
  if softness = 0 then (if w < t then 4096 else 0)
  else min ((t - w) * 4096 / softness) 4096

/-- The wipe coefficient W(x, y) (R97 to R102). -/
def wipeCoefficient (r : Raster) (w : WipeSetup) (d : Direction) (pos x y : Nat) : Nat :=
  let u := repeated (normalised x (activeWidth r)) w.rh
  let v := repeated (normalised y (activeHeight r)) w.rv
  coefficient w.softness (threshold pos w.softness) (directed d (patternValue w u v))

/-- At a switch point, a set reload mark reloads the direction state from the live reverse field and is
cleared (R103). -/
def reloadDirection (s : State) : State :=
  if s.wg.reload then { s with wg := ⟨directionOf s.mes.live.wipe.reverse, false⟩ } else s

end Sys2Proof.Machine
end

