-- ==== Sys2Proof/Machine/Composition.lean ====
section
/-!
DEFINITION. Machine/Composition.lean: the composition pipeline (chapter 7), sample by sample: input
streams, background mix, key shaping, modulation, layering, limiter and clip statistics, for program
and preview; and the event ACTIVE_SAMPLE.
-/

namespace Sys2Proof.Machine

/-- One sample as exact numbers: (Y, Cb, Cr). -/
structure Triple where
  y : Nat
  cb : Nat
  cr : Nat
  deriving DecidableEq, Repr

def Pixel.triple (p : Pixel) : Triple := ⟨p.y.toNat, p.cb.toNat, p.cr.toNat⟩

/-! ### The input streams (R20, R111) -/

def blackSample : Triple := ⟨64, 512, 512⟩

/-- The bars, from bar 0 (R20). -/
def barSample (bar : Nat) : Triple :=
  match bar with
  | 0 => ⟨721, 512, 512⟩
  | 1 => ⟨646, 176, 567⟩
  | 2 => ⟨525, 625, 176⟩
  | 3 => ⟨450, 289, 231⟩
  | 4 => ⟨335, 735, 793⟩
  | 5 => ⟨260, 399, 848⟩
  | 6 => ⟨139, 848, 457⟩
  | _ => ⟨64, 512, 512⟩

/-- The stream of an input before substitution: the arriving sample of an external source, or the
generated sample of an internal one (R20). -/
def sourceSample (s : State) (x : Nat) (src : Source) (arriving : Pixel) : Triple :=
  if isExternal src then Pixel.triple arriving
  else if src = 124 then blackSample
  else if src = 125 then barSample (x * 8 / activeWidth s.rtg.raster)
  else if src = 126 then Pixel.triple s.mes.live.matte1
  else Pixel.triple s.mes.live.matte2

/-- The stream of an input: a faulted background input gives BLACK (R32, R111). -/
def inputSample (s : State) (x : Nat) (inputs : PerInput Pixel) (i : InputId) : Triple :=
  if isBackgroundInput i && (s.input i).faulted then blackSample
  else sourceSample s x (s.input i).live (inputs.get i)

/-! ### Mixing (R112, R113, R119) -/

/-- a + floor(((b - a) * m + 2048) / 4096): the rounded mix of the background and of layering. -/
def mixCode (a b m : Nat) : Nat :=
  ((a : Int) + (((b : Int) - a) * m + 2048) / 4096).toNat

/-- The mix of each component. -/
def mixTriple (a b : Triple) (m : Nat) : Triple :=
  ⟨mixCode a.y b.y m, mixCode a.cb b.cb m, mixCode a.cr b.cr m⟩

/-- The mix factor m of the running transition at a sample (R112); 0 stands for none. -/
def mixFactor (s : State) (x y : Nat) : Nat :=
  match s.tc.inFlight with
  | none => 0
  | some rec =>
    match rec.type with
    | .mix => s.tc.pos
    | .wipe => wipeCoefficient s.rtg.raster s.mes.live.wipe s.wg.direction s.tc.pos x y

/-- The program background (R113). -/
def programBackground (s : State) (x y : Nat) (inputs : PerInput Pixel) : Triple :=
  let a := inputSample s x inputs (pgmInput s.tc.role)
  let b := inputSample s x inputs (pstInput s.tc.role)
  if (inFlightSelection s).bkgd then mixTriple a b (mixFactor s x y) else a

/-! ### Key shaping (R114 to R117) -/

/-- Clip and gain (R115). -/
def shapeKey (source clip gain : Nat) : Nat := min ((source - clip) * gain / 64) 4096

/-- The sample lies inside the crop rectangle (R116). -/
def insideCrop (k : KeyerSetup) (x y : Nat) : Bool :=
  decide (k.left ≤ x) && decide (x < k.right) && decide (k.top ≤ y) && decide (y < k.bottom)

/-- The key after clip, gain, invert, crop and opacity (R115, R116, R117). -/
def shapedKey (k : KeyerSetup) (source x y : Nat) : Nat :=
  let shaped := shapeKey source k.clip k.gain
  let inverted := if k.invert then 4096 - shaped else shaped
  let cropped := if k.crop && !insideCrop k x y then 0 else inverted
  cropped * k.opacity / 4096

/-- Some input the keyer uses is faulted for the frame (R114, R117). -/
def keyerFaulted (s : State) (k : Keyer) : Bool :=
  (keyerInputs k (s.mes.live.keyers.get k).type).any fun i => (s.input i).faulted

/-- The shaped key s2 of a keyer at a sample (R114 to R117). -/
def keySignal (s : State) (x y : Nat) (inputs : PerInput Pixel) (k : Keyer) : Nat :=
  let setup := s.mes.live.keyers.get k
  let src : InputId := match setup.type with
    | .luma => .fill k
    | .linear => .key k
  if keyerFaulted s k then 0 else shapedKey setup (inputSample s x inputs src).y x y

/-- The key coefficient of a keyer at a program sample (R118). -/
def keyCoefficient (s : State) (k : Keyer) (s2 m : Nat) : Nat :=
  match (inFlightSelection s).keyers.get k, s.tc.onAir.get k with
  | true, false => s2 * m / 4096
  | true, true => s2 * (4096 - m) / 4096
  | false, true => s2
  | false, false => 0

/-! ### Layering and limiting (R119, R120) -/

/-- Lays the four fills over a background in the live key order (R119). -/
def layer (s : State) (x : Nat) (inputs : PerInput Pixel) (bg : Triple) (k : Keyer → Nat) :
    Triple :=
  s.mes.live.order.toList.foldl
    (fun out n => mixTriple out (inputSample s x inputs (.fill n)) (k n)) bg

def clampCode (v lo hi : Nat) : Nat := max lo (min v hi)

/-- The limiter (R120). -/
def limit (l : Limiter) (t : Triple) : Triple :=
  ⟨clampCode t.y l.yLo l.yHi, clampCode t.cb l.cLo l.cHi, clampCode t.cr l.cLo l.cHi⟩

/-- The program composite before the limiter. -/
def programComposite (s : State) (x y : Nat) (inputs : PerInput Pixel) : Triple :=
  layer s x inputs (programBackground s x y inputs) fun k =>
    keyCoefficient s k (keySignal s x y inputs k) (mixFactor s x y)

/-- The preview composite before the limiter: the end state, with no modulation (R122, R123). -/
def previewComposite (s : State) (x y : Nat) (inputs : PerInput Pixel) : Triple :=
  layer s x inputs (inputSample s x inputs (backgroundAtEnd s)) fun k =>
    if onAirAtEnd s k then keySignal s x y inputs k else 0

/-- A sample as it leaves: an even position carries a chroma pair, an odd one luma alone (R110). -/
def outSample (x : Nat) (t : Triple) : OutSample :=
  ⟨t.y, if x % 2 = 0 then some (t.cb, t.cr) else none⟩

/-- The limiter changed the sample: its Y, or at an even position its Cb or Cr (R121). -/
def clips (x : Nat) (before after : Triple) : Bool :=
  before.y != after.y || (decide (x % 2 = 0) && (before.cb != after.cb || before.cr != after.cr))

/-- Samples from a frame's switch point to its first active sample: the free value, at most what leaves the
whole active picture between two regular switch points (R109; notes/assumptions/25.md). -/
def pictureLead (r : Raster) : Nat :=
  min (Config.pictureStart r)
    (frameSamples r - ((activeHeight r - 1) * lineSamples r + activeWidth r))

/-- Samples from a frame's switch point to the active sample at x, y. -/
def sampleTime (r : Raster) (x y : Nat) : Nat := pictureLead r + y * lineSamples r + x

/-- The frame in progress outputs its active sample at x, y: always when it is not shortened, and otherwise
when it has not ended by then (R10, R126). -/
def isOutput (r : Rtg) (x y : Nat) : Bool :=
  decide (frameSamples r.raster ≤ r.frameLen) || decide (sampleTime r.raster x y < r.frameLen)

/-- The position is an active sample of the raster in force (R110) that its frame outputs, in a frame that a
switch point began: the interval from the release of RESET to the first switch point has no active picture,
and what a shortened frame does not reach is not output (R126). -/
def isActive (s : State) (x y : Nat) : Bool :=
  decide (0 < s.rtg.frameStart) && decide (x < activeWidth s.rtg.raster)
    && decide (y < activeHeight s.rtg.raster) && isOutput s.rtg x y

/-- Renders one active sample to both outputs and counts a program sample that the limiter changed
(R109 to R123). -/
def renderSample (x y : Nat) (inputs : PerInput Pixel) (s : State) : State :=
  let composite := programComposite s x y inputs
  let program := limit s.mes.live.limiter composite
  let preview := limit s.mes.live.limiter (previewComposite s x y inputs)
  { s with cmp := { s.cmp with
      working :=
        if clips x composite program then min (s.cmp.working + 1) Config.maxClipCount
        else s.cmp.working
      program := some (outSample x program)
      preview := some (outSample x preview) } }

/-- A sample that the frame does not output is not rendered and does not count (R126), and a position outside
the active picture carries none (notes/assumptions/4.md). -/
def execActiveSample (x y : Nat) (inputs : PerInput Pixel) (s : State) :
    Host.Outcome State Fault Refusal :=
  .next (unlessReset (fun s => if isActive s x y then renderSample x y inputs s else s) s)

/-! ### Closing a frame (R124) -/

/-- The switch point closes the frame that just ended: the working count becomes the clip count, and a
count above 0 sets the sticky flag and raises CLIP. -/
def closeClipFrame (s : State) : State :=
  let n := s.cmp.working
  raiseAllWhen (decide (0 < n)) .clip
    { s with cmp := { s.cmp with
        working := 0, clipCount := n, sticky := s.cmp.sticky || decide (0 < n) } }

end Sys2Proof.Machine
end

