-- ==== Sys2Proof/Machine/Scenes.lean ====
section
/-!
DEFINITION. Machine/Scenes.lean: the scene store (chapter 10): SCENE PROTECT, SAVE, LOAD, ERASE, READ
and RECALL (R153 to R161).
-/

namespace Sys2Proof.Machine

/-- The slot's contents. -/
def State.slot (s : State) (n : Slot) : Option Scene := s.ss.slots[n]

/-- Replaces a slot's contents. -/
def setSlot (n : Slot) (sc : Option Scene) (s : State) : State :=
  { s with ss := { s.ss with slots := s.ss.slots.set n sc } }

/-- The slot number names a slot, and the slot is protected (R154). -/
def isProtected (s : State) (slot : Byte) : Bool :=
  match slotOf slot with
  | some n => decide (n.val < s.ss.protect)
  | none => false

/-- The checks of the commands that write a slot: a protected slot is LOCKED, then PARAM. -/
def slotChecked (slot : Byte) (inRange : Bool) (s : State) (rest : Answer) : Answer :=
  if isProtected s slot then refuse .locked s
  else if !inRange then refuse .param s
  else rest

/-! ### SCENE PROTECT (R154) -/

def dealSceneProtect (count : Byte) (p : Port) (s : State) : Answer :=
  checked p [.setup] (decide (count.toNat ≤ 16)) s <|
    unlessSame (count.toNat == s.ss.protect) { s with ss := { s.ss with protect := count.toNat } } s

def execSceneProtect (p : Port) (count chk : Byte) (s : State) :
    Host.Outcome State Fault Refusal :=
  .next (commandFrame p [0x3C#8, count] chk (dealSceneProtect count p) s)

/-! ### SCENE SAVE (R155) -/

/-- The KEYS part of one keyer: requested sources, next setup, on-air flag (R155). -/
def savedKeyer (s : State) (k : Keyer) : SceneKeyer where
  fill := (s.input (.fill k)).requested
  key := (s.input (.key k)).requested
  setup := s.mes.next.keyers.get k
  onAir := s.tc.onAir.get k

/-- The record that SCENE SAVE builds for a group mask (R155). -/
def savedScene (s : State) (mask : Byte) : Scene where
  bkgd := if mask.getLsbD 0 then
      some ⟨(s.input (pgmInput s.tc.role)).requested, (s.input (pstInput s.tc.role)).requested⟩
    else none
  keys := if mask.getLsbD 1 then some (.build (savedKeyer s)) else none
  trans := if mask.getLsbD 2 then
      some ⟨s.mes.next.selection, s.mes.next.type, s.mes.next.rate, s.mes.next.wipe⟩
    else none
  order := if mask.getLsbD 3 then some s.mes.next.order else none

/-- A group mask names a group and carries no other bit (R155, R156). -/
def groupMaskInRange (mask : Byte) : Bool := decide (0 < mask.toNat) && decide (mask.toNat < 16)

def dealSceneSave (slot mask : Byte) (s : State) : Answer :=
  slotChecked slot ((slotOf slot).isSome && groupMaskInRange mask) s <|
    match slotOf slot with
    | some n => taken .ok (setSlot n (some (savedScene s mask)) s)
    | none => refuse .param s

def execSceneSave (p : Port) (slot mask chk : Byte) (s : State) :
    Host.Outcome State Fault Refusal :=
  .next (commandFrame p [0x38#8, slot, mask] chk (dealSceneSave slot mask) s)

/-! ### SCENE LOAD (R156) -/

def dealSceneLoad (slot mask : Byte) (parts : List Byte) (s : State) : Answer :=
  slotChecked slot ((slotOf slot).isSome && (sceneOf mask parts).isSome) s <|
    match slotOf slot, sceneOf mask parts with
    | some n, some sc => taken .ok (setSlot n (some sc) s)
    | _, _ => refuse .param s

/-- The port finds the length of SCENE LOAD from its mask byte (R156, R165). -/
def execSceneLoad (p : Port) (slot mask : Byte) (body : List Byte) (s : State) :
    Host.Outcome State Fault Refusal :=
  let n := partsLength mask
  .next (sizedFrame p [0x3B#8, slot, mask] n body (dealSceneLoad slot mask (body.take n)) s)

/-! ### SCENE ERASE and SCENE READ (R157, R158) -/

def dealSceneErase (slot : Byte) (s : State) : Answer :=
  slotChecked slot (slotOf slot).isSome s <|
    match slotOf slot with
    | some n => unlessSame (s.slot n).isNone (setSlot n none s) s
    | none => refuse .param s

def execSceneErase (p : Port) (slot chk : Byte) (s : State) : Host.Outcome State Fault Refusal :=
  .next (commandFrame p [0x3A#8, slot] chk (dealSceneErase slot) s)

def dealSceneRead (slot : Byte) (s : State) : Answer :=
  match slotOf slot with
  | some n =>
    match s.slot n with
    | some sc => answered (sceneBytes sc) s
    | none => answered [0] s
  | none => refuse .param s

def execSceneRead (p : Port) (slot chk : Byte) (s : State) : Host.Outcome State Fault Refusal :=
  .next (commandFrame p [0x08#8, slot] chk (dealSceneRead slot) s)

/-! ### SCENE RECALL (R159 to R161) -/

/-- The record a slot number finds, if it names a slot that holds one. -/
def recordAt (s : State) (slot : Byte) : Option Scene := (slotOf slot).bind s.slot

/-- The resources of the groups present in a record (R48, R159). -/
def sceneResources (sc : Scene) : List Resource :=
  (if sc.bkgd.isSome then [.bkgd] else [])
    ++ (if sc.keys.isSome || sc.order.isSome then allKeyerResources else [])
    ++ (if sc.trans.isSome then [.trans] else [])

/-- The resources a recall of the slot touches; an empty or unnamed slot touches none (R159). -/
def recallResources (s : State) (slot : Byte) : List Resource :=
  match recordAt s slot with
  | some sc => sceneResources sc
  | none => []

/-- The range checks of SCENE RECALL that a cue makes at enqueue (R144). -/
def recallInRange (slot mode : Byte) : Bool := (slotOf slot).isSome && (boolOf mode).isSome

/-- Writes the TRANS part into the next copy with a given selection, and sets the reload mark
(R160, R161). -/
def recallTrans (t : SceneTrans) (sel : LayerSet) (s : State) : State :=
  writeWipe t.wipe
    (mapNext (fun n => { n with selection := sel, type := t.type, rate := t.rate }) s)

/-- Writes the ORDER part into the next copy. -/
def recallOrder (o : Option KeyOrder) (s : State) : State :=
  match o with
  | some o => mapNext (fun n => { n with order := o }) s
  | none => s

/-- Writes a keyer's fill and key sources into its requested fields. -/
def recallSources (k : Keyer) (sk : SceneKeyer) (s : State) : State :=
  request (.key k) sk.key (request (.fill k) sk.fill s)

/-- The scene cut of a DIRECT recall (R78, R160), with its crop edges clamped to the raster. -/
def sceneCutOf (r : Raster) (keys : PerKeyer SceneKeyer) (background : Bool) : SceneCut where
  keyers := keys.map fun sk => clampCrop r sk.setup
  onAir := keys.map SceneKeyer.onAir
  background := background
  deferrals := 0

/-- A recall in DIRECT mode (R160). -/
def recallDirect (sc : Scene) (s : State) : State :=
  let s := match sc.bkgd with
    | some b => request (pstInput s.tc.role) b.preset (request (pgmInput s.tc.role) b.program s)
    | none => s
  let s := match sc.keys with
    | some keys =>
      let s := Keyer.all.foldl (fun s k => recallSources k (keys.get k) s) s
      { s with tc :=
        { s.tc with sceneCut := some (sceneCutOf s.rtg.raster keys sc.bkgd.isSome) } }
    | none => s
  let s := match sc.trans with
    | some t => recallTrans t t.selection s
    | none => s
  recallOrder sc.order s

/-- The derived selection of a PREVIEW recall (R161). -/
def derivedSelection (sc : Scene) (s : State) : LayerSet :=
  let sel : LayerSet :=
    { bkgd := match sc.bkgd with
        | some b => b.program != (s.input (pgmInput s.tc.role)).live
        | none => false
      keyers := match sc.keys with
        | some keys => .build fun k => (keys.get k).onAir != s.tc.onAir.get k
        | none => .const false }
  if sel.nonEmpty then sel else bkgdOnly

/-- The KEYS part of a PREVIEW recall for one keyer: an off-air keyer takes the scene's sources and
setup; an on-air keyer keeps its own (R161). -/
def recallOffAir (keys : PerKeyer SceneKeyer) (s : State) (k : Keyer) : State :=
  if s.tc.onAir.get k then s
  else
    mapNext (setKeyer k (clampCrop s.rtg.raster (keys.get k).setup)) (recallSources k (keys.get k) s)

/-- A recall in PREVIEW mode (R161). -/
def recallPreview (sc : Scene) (s : State) : State :=
  let sel := derivedSelection sc s
  let s := match sc.bkgd with
    | some b => request (pstInput s.tc.role) b.program s
    | none => s
  let s := match sc.keys with
    | some keys => Keyer.all.foldl (recallOffAir keys) s
    | none => s
  let s := match sc.trans with
    | some t => recallTrans t sel s
    | none => s
  recallOrder sc.order s

/-- A crop edge that the recall writes lies beyond the raster in force (R159). -/
def recallClamps (sc : Scene) (direct : Bool) (s : State) : Bool :=
  match sc.keys with
  | some keys => Keyer.all.any fun k =>
      (direct || !s.tc.onAir.get k) && cropBeyond s.rtg.raster (keys.get k).setup
  | none => false

def dealSceneRecall (slot mode : Byte) (p : Port) (s : State) : Answer :=
  checked p (recallResources s slot) (recallInRange slot mode && (recordAt s slot).isSome) s <|
    match recordAt s slot with
    | some sc =>
      if s.tc.mode ≠ .idle then refuse .busy s
      else
        let direct := mode == 0#8
        taken (if recallClamps sc direct s then .clamped else .ok)
          (if direct then recallDirect sc s else recallPreview sc s)
    | none => refuse .param s

def execSceneRecall (p : Port) (slot mode chk : Byte) (s : State) :
    Host.Outcome State Fault Refusal :=
  .next (commandFrame p [0x39#8, slot, mode] chk (dealSceneRecall slot mode p) s)

end Sys2Proof.Machine
end

