-- ==== Sys2Proof/Machine/LeverUnit.lean ====
section
/-!
DEFINITION. Machine/LeverUnit.lean: lever values, holding and releasing the lever, pickup, the quiet
count, home ends, and the LU's part of the resets (chapter 5); the commands LEVER and LEVER RELEASE,
stream frames and the break (R88, R92, R167, R168), and the event QUIET_LIMIT_EXPIRY (R90).
-/

namespace Sys2Proof.Machine

/-! ### Values and positions (R81, R82) -/

/-- The lever value that a value field carries under a lever format (R81). -/
def leverValue (f : LeverFormat) (field : Half) : Nat :=
  match f with
  | .right => field.toNat % 1024
  | .left => field.toNat / 64

/-- The value at a home end. -/
def homeValue : HomeEnd → Nat
  | .low => 0
  | .high => 1023

/-- The distance of a value from a home end. -/
def leverDistance (h : HomeEnd) (v : Nat) : Nat :=
  if homeValue h ≤ v then v - homeValue h else homeValue h - v

/-- The position PL of a value measured from a home end (R82). -/
def leverPosition (h : HomeEnd) (v : Nat) : Nat := leverDistance h v * 4096 / 1023

/-- The other lever end (R94). -/
def HomeEnd.flip : HomeEnd → HomeEnd
  | .low => .high
  | .high => .low

def State.lever (s : State) (p : Port) : Lever := s.lu.levers.get p

def State.setLever (s : State) (p : Port) (l : Lever) : State :=
  { s with lu := { s.lu with levers := s.lu.levers.set p l } }

/-- Stores a value, with the position it has from the lever's home end (R82). -/
def Lever.withValue (l : Lever) (v : Nat) : Lever :=
  { l with value := v, pos := leverPosition l.home v }

/-- Changes the home end, and recomputes the position from the stored value (R82, R94). -/
def Lever.withHome (l : Lever) (h : HomeEnd) : Lever :=
  { l with home := h, pos := leverPosition h l.value }

/-! ### Holding and releasing (R83, R93) -/

/-- Makes a port the holder, with the quiet count at 0 (R83). -/
def holdLever (p : Port) (s : State) : State :=
  { s with lu := { s.lu with holder := some p, quiet := 0 } }

/-- Sets the quiet count to 0. -/
def clearQuiet (s : State) : State := { s with lu := { s.lu with quiet := 0 } }

/-- Releases the hold: no holder, quiet count 0, and a lever start that was waiting is cancelled, so its
deferral count is 0 (R61, R75, R83). -/
def releaseHold (s : State) : State :=
  { s with
    lu := { s.lu with holder := none, quiet := 0 }
    tc := { s.tc with manualDeferrals := 0 } }

/-- Releases the hold, if there is one, with LEVER_LOST to the holder unless a test exempts it (R93). -/
def releaseHoldUnless (exempt : Port → Bool) (s : State) : State :=
  match s.lu.holder with
  | none => s
  | some h => releaseHold (if exempt h then s else raiseTo .leverLost h s)

/-- The port's pickup state is WAITING. -/
def isWaiting (s : State) (p : Port) : Bool := decide ((s.lever p).pickup = .waiting)

/-- Every port a test picks loses its pickup: its pickup state becomes NONE. -/
def clearPickups (pick : Port → Bool) (s : State) : State :=
  let after := fun p => if pick p then { s.lever p with pickup := .none } else s.lever p
  { s with lu := { s.lu with levers := .build after } }

/-- The WAITING ports other than `spared` lose their pickup, with LEVER_LOST to each (R89). -/
def losePickups (spared : Option Port) (s : State) : State :=
  let pick := fun p => isWaiting s p && spared != some p
  clearPickups pick (raiseEach .leverLost pick s)

/-! ### A lever value (R84 to R87) -/

/-- A value within 32 counts of an end of the travel re-homes to that end (R85). -/
def rehomeEnd (v : Nat) : Option HomeEnd :=
  if v ≤ 32 then some .low else if 991 ≤ v then some .high else none

/-- A value in IDLE with no holder: re-home or claim (R85). -/
def idleValue (p : Port) (v : Nat) (s : State) : Answer :=
  match rehomeEnd v with
  | some h => taken .ok (s.setLever p ({ s.lever p with home := h }.withValue v))
  | none => taken .ok (holdLever p (s.setLever p ((s.lever p).withValue v)))

/-- The pickup test (R86): within 64 of P, or on the other side of P from the previous position. -/
def pickupTest (pos prev new : Nat) : Bool :=
  decide (new ≤ pos + 64 ∧ pos ≤ new + 64) || decide (prev < pos ∧ pos < new)
    || decide (new < pos ∧ pos < prev)

/-- A value in MANUAL with no holder: pickup or PENDING (R86, R89). -/
def manualValue (p : Port) (v : Nat) (s : State) : Answer :=
  let old := s.lever p
  let new := old.withValue v
  if pickupTest s.tc.pos old.pos new.pos then
    taken .ok (losePickups (some p) (holdLever p (s.setLever p { new with pickup := .none })))
  else taken .pending (s.setLever p { new with pickup := .waiting })

/-- A value of the holder (R87). -/
def holderValue (p : Port) (v : Nat) (s : State) : Answer :=
  taken .ok (clearQuiet (s.setLever p ((s.lever p).withValue v)))

/-- A lever value of a port, from a LEVER command or a stream frame (R81, R84). -/
def dealLeverValue (field : Half) (p : Port) (s : State) : Answer :=
  checked p (transResources s) true s <|
    let v := leverValue (s.port p).format field
    match s.tc.mode, s.lu.holder with
    | .auto, _ => refuse .busy s
    | .idle, none => idleValue p v s
    | .manual, none => manualValue p v s
    | .idle, some h | .manual, some h =>
      if h = p then holderValue p v s else refuse .locked s

/-- Sets a port's streaming. -/
def setStreaming (p : Port) (on : Bool) (s : State) : State :=
  s.setPort p { s.port p with streaming := on }

/-- The mode byte that enters and keeps streaming, A5h (R88, R167). -/
def streamMode : Byte := 0xA5#8

/-- A LEVER command: a taken value with mode byte A5h enters streaming (R88). -/
def dealLever (field : Half) (mode : Byte) (p : Port) (s : State) : Answer :=
  let a := dealLeverValue field p s
  if mode = streamMode ∧ a.outcome.refused = false then
    { a with state := setStreaming p true a.state }
  else a

def execLever (p : Port) (value : Half) (mode chk : Byte) (s : State) :
    Host.Outcome State Fault Refusal :=
  .next (commandFrame p (0x23#8 :: (be16 value ++ [mode])) chk (dealLever value mode p) s)

/-! ### LEVER RELEASE (R92) -/

def dealLeverRelease (p : Port) (s : State) : Answer :=
  if s.lu.holder = some p then taken .ok (releaseHold s) else taken .ignored s

def execLeverRelease (p : Port) (chk : Byte) (s : State) : Host.Outcome State Fault Refusal :=
  .next (commandFrame p [0x24#8] chk (dealLeverRelease p) s)

/-! ### Stream frames and the break (R167, R168) -/

/-- A break on a streaming port: streaming ends and the answer is OK; nothing reaches the intake. -/
def takeBreak (p : Port) (s : State) : State := reply p .ok [] (setStreaming p false s)

/-- A stream frame with a correct check byte: its value is dealt with, and then mode byte A5h keeps
streaming as it stands and any other ends it, whatever the outcome (R167). A stream frame never enters
streaming, so one dealt with after a break of its port leaves it off (R168; notes/assumptions/5.md). -/
def dealStream (value : Half) (mode : Byte) (p : Port) (s : State) : Answer :=
  let a := dealLeverValue value p s
  if mode = streamMode then a else { a with state := setStreaming p false a.state }

/-- A frame on a streaming port. A first byte FFh is a break, recognised before the rest (R168). -/
def streamCourse (p : Port) (value : Half) (mode chk : Byte) (s : State) : State :=
  if takesStream s p then
    if value.extractLsb' 8 8 = 0xFF#8 then takeBreak p s
    else if crc8 (be16 value ++ [mode]) = chk then
      passToIntake p ⟨true, be16 value ++ [mode]⟩ (dealStream value mode p) s
    else reply p .check [] s
  else s

def execStreamFrame (p : Port) (value : Half) (mode chk : Byte) (s : State) :
    Host.Outcome State Fault Refusal :=
  .next (streamCourse p value mode chk s)

def execBreakFrame (p : Port) (s : State) : Host.Outcome State Fault Refusal :=
  .next (if takesStream s p then takeBreak p s else s)

/-! ### The switch point (R90) -/

/-- The LU's work at a switch point: the holder's quiet count rises, and at the port's quiet limit the
hold is released with LEVER_LOST (R90). -/
def quietStep (s : State) : State :=
  match s.lu.holder with
  | none => s
  | some h =>
    if (s.port h).quietLimit ≤ s.lu.quiet + 1 then releaseHoldUnless (fun _ => false) s
    else { s with lu := { s.lu with quiet := s.lu.quiet + 1 } }

def execQuietLimitExpiry (s : State) : Host.Outcome State Fault Refusal :=
  .next (unlessReset quietStep s)

/-! ### Resets (R95, R96) -/

/-- ENGINE RESET on the LU, sent by port `p` (R95). -/
def leverEngineReset (p : Port) (s : State) : State :=
  let lost := fun q => q != p && (s.lu.holder == some q || isWaiting s q)
  releaseHold (clearPickups (fun _ => true) (raiseEach .leverLost lost s))

/-- PORT RESET on the LU for port `p` (R96). -/
def leverPortReset (p : Port) (s : State) : State :=
  (if s.lu.holder = some p then releaseHold s else s).setLever p powerOnLever

end Sys2Proof.Machine
end

