-- ==== Sys2Proof/Machine/Transitions.lean ====
section
/-!
DEFINITION. Machine/Transitions.lean: the commands CUT, AUTO and KEY CUT (R62 to R64), and the
transition controller's frame take, stage by stage (R66 to R79), with the events that name its steps.

Each stage is one operation; SWITCH_POINT runs them all in order (`frameTake`), and the events
SCENE_CUT_APPLY, KEY_CUT_APPLY, CUT_PERFORM, AUTO_START, TAKEOVER, MANUAL_START, COMPLETION and
ENGINE_RESET_APPLY each run the one they name (notes/assumptions/2.md).
-/

namespace Sys2Proof.Machine

/-! ### CUT, AUTO and KEY CUT -/

/-- Changes the TC's state. -/
def mapTc (f : Tc → Tc) (s : State) : State := { s with tc := f s.tc }

/-- The set of one port. -/
def onlyPort (p : Port) : PerPort Bool := (PerPort.const false).set p true

def dealCut (p : Port) (s : State) : Answer :=
  checked p (transResources s) true s <|
    taken .ok <|
      match s.tc.main with
      | .none => mapTc (fun t => { t with main := .cut, issuing := onlyPort p, mainDeferrals := 0 }) s
      | .auto => mapTc (fun t => { t with main := .cut, issuing := onlyPort p }) s
      | .cut => mapTc (fun t => { t with issuing := t.issuing.set p true }) s

def execCut (p : Port) (chk : Byte) (s : State) : Host.Outcome State Fault Refusal :=
  .next (commandFrame p [0x20#8] chk (dealCut p) s)

def dealAuto (p : Port) (s : State) : Answer :=
  checked p (transResources s) true s <|
    match s.tc.mode, s.tc.main with
    | .auto, _ => refuse .busy s
    | _, .cut => refuse .busy s
    | _, .auto => taken .ok (mapTc (fun t => { t with issuing := t.issuing.set p true }) s)
    | _, .none =>
      taken .ok
        (mapTc (fun t => { t with main := .auto, issuing := onlyPort p, mainDeferrals := 0 }) s)

def execAuto (p : Port) (chk : Byte) (s : State) : Host.Outcome State Fault Refusal :=
  .next (commandFrame p [0x21#8] chk (dealAuto p) s)

def keyCutInRange (keyer target : Byte) : Bool := (keyerOf keyer).isSome && (boolOf target).isSome

/-- Replaces a keyer's pending key cut. -/
def setKeyCut (k : Keyer) (kc : Option KeyCut) (t : Tc) : Tc :=
  { t with keyCuts := t.keyCuts.set k kc }

/-- The deferral count of a pending key cut, 0 when none is pending. -/
def keyCutDeferrals (kc : Option KeyCut) : Nat :=
  match kc with
  | some c => c.deferrals
  | none => 0

def dealKeyCut (keyer target : Byte) (p : Port) (s : State) : Answer :=
  checked p (keyerResources keyer) (keyCutInRange keyer target) s <|
    match keyerOf keyer, boolOf target with
    | some k, some on =>
      let old := s.tc.keyCuts.get k
      if (inFlightSelection s).keyers.get k then refuse .busy s
      else
        unlessSame (on == s.tc.onAir.get k && old.isNone)
          (mapTc (setKeyCut k (some ⟨on, keyCutDeferrals old⟩)) s) s
    | _, _ => refuse .param s

def execKeyCut (p : Port) (keyer target chk : Byte) (s : State) :
    Host.Outcome State Fault Refusal :=
  .next (commandFrame p [0x22#8, keyer, target] chk (dealKeyCut keyer target p) s)

/-! ### Before the first stage: a pending engine reset (R79) -/

/-- The controller leaves MANUAL: every WAITING port loses its pickup (R89). In another mode nothing
happens. -/
def leaveManual (s : State) : State :=
  match s.tc.mode with
  | .manual => losePickups none s
  | .idle | .auto => s

/-- The controller goes IDLE with P 0 and no in-flight record. -/
def toIdle (s : State) : State :=
  mapTc (fun t => { t with mode := .idle, pos := 0, inFlight := none }) (leaveManual s)

/-- The take applies a pending ENGINE RESET (R79). -/
def applyEngineReset (s : State) : State :=
  if s.tc.resetPending then
    mapTc (fun t => { t with role := .bga, onAir := .const false, resetPending := false }) (toIdle s)
  else s

def execEngineResetApply (s : State) : Host.Outcome State Fault Refusal :=
  .next (unlessReset applyEngineReset s)

/-! ### Stage 1: the pending scene cut (R67) -/

/-- The inputs of a scene cut (R78). -/
def sceneCutInputs (c : SceneCut) : List InputId :=
  (if c.background then [.bga, .bgb] else [])
    ++ Keyer.all.flatMap fun k => keyerInputs k (c.keyers.get k).type

/-- Writes the scene cut's setups into both copies, sets the flags, and clears it (R39, R67). -/
def applySceneCut (c : SceneCut) (s : State) : State :=
  let put := fun st : Setup => { st with keyers := c.keyers }
  { s with
    mes := { s.mes with next := put s.mes.next, live := put s.mes.live }
    tc := { s.tc with onAir := c.onAir, sceneCut := none } }

def sceneCutStage (s : State) : State :=
  match s.tc.sceneCut with
  | none => s
  | some c =>
    if anyInFlight s (sceneCutInputs c) && decide (c.deferrals < Config.maxDeferrals) then
      mapTc (fun t => { t with sceneCut := some { c with deferrals := c.deferrals + 1 } }) s
    else applySceneCut c s

def execSceneCutApply (s : State) : Host.Outcome State Fault Refusal :=
  .next (unlessReset sceneCutStage s)

/-- Stages 2 and 3 and a lever start do nothing while a scene cut is still pending (R67). -/
def behindSceneCut (s : State) (f : State → State) : State :=
  if s.tc.sceneCut.isSome then s else f s

/-! ### Stage 2: the pending key cuts (R68) -/

/-- Applies a key cut: the flag takes the target, and the key cut is cleared. -/
def applyKeyCut (k : Keyer) (target : Bool) (s : State) : State :=
  mapTc (fun t => { setKeyCut k none t with onAir := t.onAir.set k target }) s

/-- One keyer's pending key cut. While the keyer is in the in-flight selection it waits, uncounted. -/
def keyCutStage (k : Keyer) (s : State) : State :=
  match s.tc.keyCuts.get k with
  | none => s
  | some c =>
    if (inFlightSelection s).keyers.get k then s
    else if anyInFlight s (keyerInputs k (s.mes.live.keyers.get k).type)
        && decide (c.deferrals < Config.maxDeferrals) then
      mapTc (setKeyCut k (some { c with deferrals := c.deferrals + 1 })) s
    else applyKeyCut k c.target s

def execKeyCutApply (k : Keyer) (s : State) : Host.Outcome State Fault Refusal :=
  .next (unlessReset (fun s => behindSceneCut s (keyCutStage k)) s)

/-! ### The inputs of a start (R69) -/

/-- The inputs of a selection under the live keyer types (R69). -/
def selectionInputs (s : State) (l : LayerSet) : List InputId :=
  (if l.bkgd then [.bga, .bgb] else [])
    ++ (Keyer.all.filter l.keyers.get).flatMap fun k => keyerInputs k (s.mes.live.keyers.get k).type

/-- A start from IDLE with this deferral count must wait at this take (R69). -/
def startWaits (s : State) (deferrals : Nat) : Bool :=
  anyInFlight s (selectionInputs s s.mes.live.selection) && decide (deferrals < Config.maxDeferrals)

/-! ### Stage 5: completion (R76, R94, R104) -/

/-- What a stage hands to completion: the selection, the type where there is one, and whether stage 4
reached 4096 from the holder's lever. -/
structure Completing where
  selection : LayerSet
  type : Option TransType
  byLever : Bool
  deriving DecidableEq, Repr

/-- The on-air flags with those of a selection toggled (R76). -/
def toggleFlags (l : LayerSet) (flags : PerKeyer Bool) : PerKeyer Bool :=
  .build fun k => xor (l.keyers.get k) (flags.get k)

def Direction.flip : Direction → Direction
  | .normal => .reversed
  | .reversed => .normal

/-- Toggles the wipe direction after a WIPE with the live flip-flop on (R104). -/
def toggleDirection (t : Option TransType) (s : State) : State :=
  if t = some .wipe ∧ s.mes.live.wipe.flipFlop = true then
    { s with wg := { s.wg with direction := s.wg.direction.flip } }
  else s

/-- Flips the holder's home end and recomputes its position (R94). -/
def flipHome (s : State) : State :=
  match s.lu.holder with
  | none => s
  | some h => s.setLever h ((s.lever h).withHome (s.lever h).home.flip)

/-- Stage 5 (R76). -/
def complete (c : Completing) (s : State) : State :=
  let role := if c.selection.bkgd then s.tc.role.swap else s.tc.role
  let s := toIdle (toggleDirection c.type s)
  let s := mapTc (fun t => { t with role := role, onAir := toggleFlags c.selection t.onAir }) s
  raiseAll .done (releaseHold (if c.byLever then flipHome s else s))

/-- The state a stage leaves, what it hands to completion, and whether stage 4 still has its turn. -/
structure StageWork where
  state : State
  completing : Option Completing
  advances : Bool

/-- A stage that had nothing to do. -/
def noWork (s : State) : StageWork := ⟨s, none, true⟩

/-- Runs completion when a stage handed one over. -/
def finish (w : StageWork) : State :=
  match w.completing with
  | some c => complete c w.state
  | none => w.state

/-! ### Stage 3: the pending main action -/

/-- The pending main action is performed: NONE, no issuing ports, count 0 (R70, R71, R72). -/
def clearMain (s : State) : State :=
  mapTc (fun t => { t with main := .none, issuing := .const false, mainDeferrals := 0 }) s

/-- The main action is deferred by one frame (R69). -/
def deferMain (s : State) : State :=
  mapTc (fun t => { t with mainDeferrals := t.mainDeferrals + 1 }) s

/-- Releases the hold for a CUT or AUTO: LEVER_LOST unless the holder is an issuing port (R93). -/
def releaseForMain (s : State) : State := releaseHoldUnless s.tc.issuing.get s

/-- What completes when a running transition is cut: the record's selection and type. -/
def completeRunning (s : State) : Completing :=
  ⟨inFlightSelection s, s.tc.inFlight.map InFlight.type, false⟩

/-- A CUT from IDLE, or an AUTO performed as one: the live selection, and no type (R70, R71). -/
def completeCut (s : State) : Completing := ⟨s.mes.live.selection, none, false⟩

/-- Stage 3 on a pending CUT (R70). -/
def cutStage (s : State) : StageWork :=
  match s.tc.main, s.tc.mode with
  | .cut, .idle =>
    if startWaits s s.tc.mainDeferrals then ⟨deferMain s, none, true⟩
    else ⟨clearMain (releaseForMain s), some (completeCut s), false⟩
  | .cut, _ => ⟨clearMain (releaseForMain s), some (completeRunning s), false⟩
  | _, _ => noWork s

/-- The record of an auto transition that starts from IDLE (R71). -/
def autoRecord (s : State) : InFlight :=
  ⟨s.mes.live.selection, s.mes.live.type, 0, s.mes.live.rate, 0, .auto⟩

/-- Stage 3 on a pending AUTO from IDLE (R71). -/
def autoStage (s : State) : StageWork :=
  match s.tc.main, s.tc.mode with
  | .auto, .idle =>
    if startWaits s s.tc.mainDeferrals then ⟨deferMain s, none, true⟩
    else if s.mes.live.rate = 0 then ⟨clearMain (releaseForMain s), some (completeCut s), false⟩
    else
      let started := mapTc
        (fun t => { t with mode := .auto, pos := 0, inFlight := some (autoRecord s) })
        (clearMain (releaseForMain s))
      ⟨started, none, false⟩
  | _, _ => noWork s

/-- ceil(a / b) for b above 0. -/
def ceilDiv (a b : Nat) : Nat := (a + (b - 1)) / b

/-- The frame count R of a takeover at position `p0` (R72). -/
def takeoverFrames (p0 rate : Nat) : Nat := ceilDiv ((4096 - p0) * rate) 4096

/-- Stage 3 on a pending AUTO in MANUAL (R72). -/
def takeoverStage (s : State) : StageWork :=
  match s.tc.main, s.tc.mode with
  | .auto, .manual =>
    let base := clearMain (releaseForMain s)
    if s.mes.live.rate = 0 then ⟨base, some (completeRunning s), false⟩
    else
      let p0 := s.tc.pos
      let taking := fun rec : InFlight =>
        { rec with p0 := p0, r := takeoverFrames p0 s.mes.live.rate, k := 0, driver := .auto }
      ⟨mapTc (fun t => { t with mode := .auto, inFlight := t.inFlight.map taking }) (leaveManual base),
        none, false⟩
  | _, _ => noWork s

/-- Stage 3: at most one of the three has work, since each tests the action and the mode. -/
def mainStage (s : State) : StageWork :=
  if s.tc.sceneCut.isSome then noWork s
  else
    match s.tc.main, s.tc.mode with
    | .none, _ => noWork s
    | .cut, _ => cutStage s
    | .auto, .manual => takeoverStage s
    | .auto, _ => autoStage s

def execCutPerform (s : State) : Host.Outcome State Fault Refusal :=
  .next (unlessReset (fun s => behindSceneCut s fun s => finish (cutStage s)) s)

def execAutoStart (s : State) : Host.Outcome State Fault Refusal :=
  .next (unlessReset (fun s => behindSceneCut s fun s => finish (autoStage s)) s)

def execTakeover (s : State) : Host.Outcome State Fault Refusal :=
  .next (unlessReset (fun s => behindSceneCut s fun s => finish (takeoverStage s)) s)

/-! ### Stage 4: advance -/

/-- The position after the k-th of R frames from P0 (R73). -/
def autoPosition (p0 r k : Nat) : Nat := p0 + (4096 - p0) * k / r

/-- Stage 4 in AUTO (R73): k rises; at R the transition completes. -/
def autoAdvance (s : State) : StageWork :=
  match s.tc.inFlight with
  | none => noWork s
  | some rec =>
    let k := rec.k + 1
    if k < rec.r then
      let moved := { rec with k := k }
      ⟨mapTc (fun t => { t with pos := autoPosition rec.p0 rec.r k, inFlight := some moved }) s,
        none, true⟩
    else ⟨s, some ⟨rec.selection, some rec.type, false⟩, true⟩

/-- Stage 4 in MANUAL (R74): P follows the holder; 0 returns home, 4096 completes. -/
def leverAdvance (s : State) : StageWork :=
  match s.lu.holder with
  | none => noWork s
  | some h =>
    let pl := (s.lever h).pos
    if pl = 0 then ⟨releaseHold (toIdle s), none, true⟩
    else if 4096 ≤ pl then ⟨s, some { completeRunning s with byLever := true }, true⟩
    else ⟨mapTc (fun t => { t with pos := pl }) s, none, true⟩

/-- The record of a manual transition that starts from IDLE (R75). -/
def manualRecord (s : State) : InFlight :=
  ⟨s.mes.live.selection, s.mes.live.type, 0, 0, 0, .lever⟩

/-- The lever start is performed with the holder's position (R75). -/
def startManual (pl : Nat) (s : State) : StageWork :=
  let started := mapTc (fun t => { t with
    mode := .manual, inFlight := some (manualRecord s), manualDeferrals := 0 }) s
  if 4096 ≤ pl then ⟨started, some { completeRunning started with byLever := true }, true⟩
  else ⟨mapTc (fun t => { t with pos := pl }) started, none, true⟩

/-- Sets the manual start deferral count. -/
def setManualDeferrals (n : Nat) (s : State) : State :=
  mapTc (fun t => { t with manualDeferrals := n }) s

/-- Stage 4 in IDLE: a lever start (R75). While a main action or a scene cut is pending it waits
without counting. -/
def manualStage (s : State) : StageWork :=
  match s.tc.mode, s.lu.holder with
  | .idle, some h =>
    let pl := (s.lever h).pos
    if pl = 0 then ⟨setManualDeferrals 0 s, none, true⟩
    else if s.tc.main ≠ .none ∨ s.tc.sceneCut.isSome then noWork s
    else if startWaits s s.tc.manualDeferrals then
      ⟨setManualDeferrals (s.tc.manualDeferrals + 1) s, none, true⟩
    else startManual pl s
  | _, _ => noWork s

/-- Stage 4. -/
def advanceStage (s : State) : StageWork :=
  match s.tc.mode with
  | .auto => autoAdvance s
  | .manual => leverAdvance s
  | .idle => manualStage s

def execManualStart (s : State) : Host.Outcome State Fault Refusal :=
  .next (unlessReset (fun s => finish (manualStage s)) s)

/-- The completion that stage 4 brings about in the state as it stands: an auto transition at its last
frame, or a holder at 4096 in MANUAL (R73, R74). -/
def dueCompletion (s : State) : Option Completing :=
  match s.tc.mode with
  | .auto => (autoAdvance s).completing
  | .manual => (leverAdvance s).completing
  | .idle => none

def execCompletion (s : State) : Host.Outcome State Fault Refusal :=
  .next (unlessReset (fun s => finish ⟨s, dueCompletion s, true⟩) s)

/-! ### The frame take (R66) -/

/-- Stages 3 to 5: after a stage 3 that performed an action, stage 4 does nothing. -/
def laterStages (s : State) : State :=
  let w := mainStage s
  if w.advances then finish (advanceStage w.state) else finish w

/-- Stage 2 for the four keyers, behind a scene cut that is still pending. -/
def keyCutStages (s : State) : State :=
  behindSceneCut s fun s =>
    keyCutStage .k4 (keyCutStage .k3 (keyCutStage .k2 (keyCutStage .k1 s)))

/-- The whole frame take: the engine reset, then stages 1 to 5 (section 4.3). -/
def frameTake (s : State) : State :=
  laterStages (keyCutStages (sceneCutStage (applyEngineReset s)))

end Sys2Proof.Machine
end

