-- ==== Sys2Proof/Machine/Cues.lean ====
section
/-!
DEFINITION. Machine/Cues.lean: the cue queue (chapter 9): CUE, CUE CANCEL, CUE LIST, release, and the
prune of SET FRAME COUNT (R17, R150), with the resets' part (R151).
-/

namespace Sys2Proof.Machine

/-! ### The twelve embedded commands (R143, R144, R146) -/

/-- The resources an embedded command touches (R48). -/
def cueResources (s : State) : CueCommand → List Resource
  | .selectBus bus _ => busResources bus
  | .setNext _ _ => [.trans]
  | .setRate _ => [.trans]
  | .keySetup k _ _ _ _ => keyerResources k
  | .keyCrop k _ _ _ _ _ => keyerResources k
  | .keyOrder _ _ _ _ => allKeyerResources
  | .wipeSetup _ _ _ _ _ _ _ => [.trans]
  | .matteSet _ _ _ _ => [.setup]
  | .cut => transResources s
  | .auto => transResources s
  | .keyCut k _ => keyerResources k
  | .sceneRecall slot _ => recallResources s slot

/-- The range checks of an embedded command (R144). -/
def cueInRange : CueCommand → Bool
  | .selectBus bus src => selectBusInRange bus src
  | .setNext layers type => setNextInRange layers type
  | .setRate _ => true
  | .keySetup k f clip gain _ => keySetupInRange k f clip gain
  | .keyCrop k e _ _ _ _ => keyCropInRange k e
  | .keyOrder a b c d => keyOrderInRange a b c d
  | .wipeSetup pat e rh rv cx cy f => wipeSetupInRange pat e rh rv cx cy f
  | .matteSet m y cb cr => matteSetInRange m y cb cr
  | .cut => true
  | .auto => true
  | .keyCut k t => keyCutInRange k t
  | .sceneRecall slot mode => recallInRange slot mode

/-- The intake deals with a released command as a command of port `p` (R146). -/
def dealCueCommand (c : CueCommand) (p : Port) (s : State) : Answer :=
  match c with
  | .selectBus bus src => dealSelectBus bus src p s
  | .setNext layers type => dealSetNext layers type p s
  | .setRate rate => dealSetRate rate p s
  | .keySetup k f clip gain op => dealKeySetup k f clip gain op p s
  | .keyCrop k e l r t b => dealKeyCrop k e l r t b p s
  | .keyOrder a b c d => dealKeyOrder a b c d p s
  | .wipeSetup pat e rh rv cx cy f => dealWipeSetup pat e rh rv cx cy f p s
  | .matteSet m y cb cr => dealMatteSet m y cb cr p s
  | .cut => dealCut p s
  | .auto => dealAuto p s
  | .keyCut k t => dealKeyCut k t p s
  | .sceneRecall slot mode => dealSceneRecall slot mode p s

/-! ### Distance, place and tag (R141, R142) -/

/-- The distance of a target from the frame counter, modulo 2^32 (R141). -/
def distance (counter target : Word) : Nat := (target - counter).toNat

/-- A new entry's place: after every entry whose distance is not greater (R141). -/
def insertCue (counter : Word) (e : CueEntry) : List CueEntry → List CueEntry
  | [] => [e]
  | x :: rest =>
    if distance counter x.target ≤ distance counter e.target then x :: insertCue counter e rest
    else e :: x :: rest

/-- The tag after a tag: 65535 is followed by 1 (R142). -/
def tagAfter (t : Half) : Half := if t = 0xFFFF#16 then 1 else t + 1

/-- The tag is that of an entry in the queue. -/
def tagInUse (entries : List CueEntry) (t : Half) : Bool := entries.any fun e => e.tag == t

/-- The first tag not in use from `t` on, trying at most `fuel` more (R142). -/
def freeTag (entries : List CueEntry) : Nat → Half → Half
  | 0, t => t
  | fuel + 1, t => if tagInUse entries t then freeTag entries fuel (tagAfter t) else t

/-- The tag the next cue gets: one more try than the queue can hold always finds one. -/
def nextFreeTag (q : Cq) : Half := freeTag q.entries (q.entries.length + 1) q.nextTag

/-- Replaces the queue's entries. -/
def setEntries (es : List CueEntry) (s : State) : State :=
  { s with cq := { s.cq with entries := es } }

/-! ### CUE (R143) -/

/-- Queues an entry under the next free tag. -/
def enqueue (target : Word) (code : Byte) (args : List Byte) (p : Port) (s : State) : State :=
  let tag := nextFreeTag s.cq
  { s with cq := { s.cq with
      entries := insertCue s.rtg.counter ⟨tag, p, target, code, args⟩ s.cq.entries
      nextTag := tagAfter tag } }

/-- The distance lies in 65536 .. 2^31, which gives PARAM (R143). -/
def tooFar (d : Nat) : Bool := decide (65536 ≤ d) && decide (d ≤ 2147483648)

/-- The distance is 0 or above 2^31, which gives LATE (R143). -/
def tooLate (d : Nat) : Bool := decide (d = 0) || decide (2147483648 < d)

def dealCue (target : Word) (code : Byte) (args : List Byte) (p : Port) (s : State) : Answer :=
  let d := distance s.rtg.counter target
  match parseCue code args with
  | none => refuse .param s
  | some c =>
    checked p (cueResources s c) (cueInRange c && !tooFar d) s <|
      if Config.cueCapacity ≤ s.cq.entries.length then refuse .full s
      else if tooLate d then refuse .late s
      else ⟨.ok, be16 (nextFreeTag s.cq), enqueue target code args p s⟩

/-- The port finds the length of CUE from its embedded code (R143, R165). -/
def execCue (p : Port) (target : Word) (code : Byte) (body : List Byte) (s : State) :
    Host.Outcome State Fault Refusal :=
  let n := embeddedLength code
  .next (sizedFrame p (0x30#8 :: (be32 target ++ [code])) n body
    (dealCue target code (body.take n) p) s)

/-! ### Release (R145 to R147) -/

/-- A refused released command: CUE_FAIL and the owner's record (R147). -/
def recordFailure (e : CueEntry) (o : CmdOutcome) (s : State) : State :=
  raiseTo .cueFail e.owner
    { s with cq := { s.cq with failures := s.cq.failures.set e.owner (some ⟨e.tag, o⟩) } }

/-- What the intake makes of an entry's embedded command. Bytes that spell none of the twelve, which
no CUE queues, are refused with PARAM. -/
def releaseAnswer (e : CueEntry) (s : State) : Answer :=
  match parseCue e.code e.args with
  | some c => dealCueCommand c e.owner s
  | none => refuse .param s

/-- Deals with one released entry (R146, R147). -/
def releaseEntry (s : State) (e : CueEntry) : State :=
  let a := releaseAnswer e s
  if a.outcome.refused then recordFailure e a.outcome s else a.state

/-- An entry is due: its target equals the frame counter (R145). -/
def isDue (s : State) (e : CueEntry) : Bool := e.target == s.rtg.counter

/-- The CQ's work at a switch point: every due entry leaves the queue and is dealt with, in queue order
(R145). -/
def releaseDue (s : State) : State :=
  (s.cq.entries.filter (isDue s)).foldl releaseEntry
    (setEntries (s.cq.entries.filter fun e => !isDue s e) s)

/-- Releases the first due entry, if there is one. -/
def releaseFirst (s : State) : State :=
  match s.cq.entries.find? (isDue s) with
  | some e => releaseEntry (setEntries (s.cq.entries.eraseP (isDue s)) s) e
  | none => s

def execCueRelease (s : State) : Host.Outcome State Fault Refusal :=
  .next (unlessReset releaseFirst s)

/-! ### CUE CANCEL and CUE LIST (R148, R149) -/

def dealCueCancel (tag : Half) (p : Port) (s : State) : Answer :=
  if tag = 0 then taken .ok (setEntries (s.cq.entries.filter fun e => e.owner != p) s)
  else
    match s.cq.entries.find? fun e => e.tag == tag with
    | none => refuse .param s
    | some e =>
      if e.owner ≠ p then refuse .locked s
      else taken .ok (setEntries (s.cq.entries.eraseP fun e => e.tag == tag) s)

def execCueCancel (p : Port) (tag : Half) (chk : Byte) (s : State) :
    Host.Outcome State Fault Refusal :=
  .next (commandFrame p (0x31#8 :: be16 tag) chk (dealCueCancel tag p) s)

/-- An entry's eight bytes in CUE LIST (R182). -/
def cueEntryBytes (e : CueEntry) : List Byte :=
  be16 e.tag ++ [portCode (some e.owner)] ++ be32 e.target ++ [e.code]

/-- The caller's last cue failure in CUE LIST (R149, R182). -/
def cueFailureBytes (f : Option CueFailure) : List Byte :=
  match f with
  | some f => be16 f.tag ++ [outcomeCode f.outcome]
  | none => [0, 0, 0]

def dealCueList (p : Port) (s : State) : Answer :=
  answered (cueFailureBytes (s.cq.failures.get p) ++ [byteOf s.cq.entries.length]
    ++ s.cq.entries.flatMap cueEntryBytes) s

def execCueList (p : Port) (chk : Byte) (s : State) : Host.Outcome State Fault Refusal :=
  .next (commandFrame p [0x07#8] chk (dealCueList p) s)

/-! ### SET FRAME COUNT (R17, R150) -/

/-- The entry's distance from a counter value lies in 1 .. 65535. -/
def staysQueued (counter : Word) (e : CueEntry) : Bool :=
  decide (1 ≤ distance counter e.target) && decide (distance counter e.target ≤ 65535)

/-- Removes the entries a test fails, with CUE_DROP to each owner that lost one. -/
def dropCues (keep : CueEntry → Bool) (s : State) : State :=
  raiseEach .cueDrop (fun p => s.cq.entries.any fun e => e.owner == p && !keep e)
    (setEntries (s.cq.entries.filter keep) s)

/-- Sets the frame counter. -/
def setCounter (v : Word) (s : State) : State := { s with rtg := { s.rtg with counter := v } }

def dealSetFrameCount (value : Word) (p : Port) (s : State) : Answer :=
  checked p [.setup] true s (taken .ok (dropCues (staysQueued value) (setCounter value s)))

def execSetFrameCount (p : Port) (value : Word) (chk : Byte) (s : State) :
    Host.Outcome State Fault Refusal :=
  .next (commandFrame p (0x41#8 :: be32 value) chk (dealSetFrameCount value p) s)

/-! ### Resets (R151) -/

/-- PORT RESET on the cue queue (R151). -/
def cuesPortReset (p : Port) (s : State) : State :=
  { s with cq := { s.cq with
      entries := s.cq.entries.filter fun e => e.owner != p
      failures := s.cq.failures.set p none } }

end Sys2Proof.Machine
end

