-- ==== Sys2Proof/Machine/SwitchPoint.lean ====
section
/-!
DEFINITION. Machine/SwitchPoint.lean: the switch point (R2): every block's work on its frame-timed
state, in the order the chapters give, and the event TIMING_SETUP_APPLY (R15).
-/

namespace Sys2Proof.Machine

/-- The RTG's work, with REF when the lock state differs (R13). -/
def timingSwitch (s : State) : State :=
  let r := rtgSwitch s.rtg
  raiseAllWhen (decide (r.lock ≠ s.rtg.lock)) .ref { s with rtg := r }

/-- The MES copies every setup from next to live (R38). -/
def copyNextToLive (s : State) : State := { s with mes := { s.mes with live := s.mes.next } }

/-- Clamps the crop edges of a setup copy to a raster. -/
def clampSetup (r : Raster) (st : Setup) : Setup := { st with keyers := st.keyers.map (clampCrop r) }

/-- Clamps every crop edge, in both copies and in a pending scene cut, to the raster in force (R40). -/
def clampCrops (s : State) : State :=
  let clamp := clampSetup s.rtg.raster
  let cut := fun c : SceneCut => { c with keyers := c.keyers.map (clampCrop s.rtg.raster) }
  { s with
    mes := { s.mes with next := clamp s.mes.next, live := clamp s.mes.live }
    tc := { s.tc with sceneCut := s.tc.sceneCut.map cut } }

/-- Clamps the crop edges when the raster changed at this switch point (R40). -/
def clampCropsWhen (changed : Bool) (s : State) : State := if changed then clampCrops s else s

/-- The MES's and WG's work: the copy, the reload of the direction, and the clamp at a raster change
(R38, R40, R103). -/
def setupSwitch (changed : Bool) (s : State) : State :=
  clampCropsWhen changed (reloadDirection (copyNextToLive s))

/-- A whole switch point. The order: the clip count of the frame that ends; the RTG; the bus inputs;
the setups and the wipe direction; the lever's quiet count; the frame take; the INPUT notice and the
tally, which read what the take left; and the cue queue, when every block's work is done (R27, R33,
R38, R66, R91, R133, R145). -/
def switchPointWork (xready : Bool) (s : State) : State :=
  let ended := s.rtg
  let before := s.bi.inputs
  let s := inputsSwitch ended xready (timingSwitch (closeClipFrame s))
  let s := frameTake (quietStep (setupSwitch (rasterChanges ended) s))
  releaseDue (publishTally (inputNotice before s))

def execSwitchPoint (xready : Bool) (s : State) : Host.Outcome State Fault Refusal :=
  .next (unlessReset (switchPointWork xready) s)

/-- The pending timing setup takes effect: the RTG's state with REF, and at a raster change the settling
of the inputs and the crop clamp (R13, R15, R30, R40). DESIGN CHOICE: this step alone begins no frame, so
the length and start of the frame in progress and its marker stay (notes/assumptions/23.md); a switch point
begins the new raster's frame (R15). -/
def timingSetupWork (s : State) : State :=
  let changed := rasterChanges s.rtg
  let r := applyTimingSetup s.rtg
  let s' := raiseAllWhen (decide (r.lock ≠ s.rtg.lock)) .ref { s with rtg := r }
  clampCropsWhen changed (settleAll changed s')

def execTimingSetupApply (s : State) : Host.Outcome State Fault Refusal :=
  .next (unlessReset timingSetupWork s)

end Sys2Proof.Machine
end

