-- ==== Sys2Proof/Machine/Ports.lean ====
section
/-!
DEFINITION. Machine/Ports.lean: the command ports (chapter 11): the link events (R166), ILLEGAL (R165),
the response (R170, R180), PORT SETUP (R174), NOTICE MASK (R173), and the three resets: PORT RESET
(R175), ENGINE RESET (R176) and the RESET pin (R177).
-/

namespace Sys2Proof.Machine

/-- Changes one port's state. -/
def mapPort (p : Port) (f : PortState → PortState) (s : State) : State := s.setPort p (f (s.port p))

/-! ### Link events (R166) -/

/-- The port's phase. -/
def phaseIs (s : State) (p : Port) (ph : LinkPhase) : Bool := decide ((s.port p).phase = ph)

/-- The select line goes high: the port is CLOSED, and what was left of a response is discarded. -/
def closePort (ps : PortState) : PortState :=
  { ps with phase := .closed, selectLow := false, reply := none, response := [] }

/-- Select falls. With RESET asserted only the line moves (R177). -/
def selectFallWork (p : Port) (s : State) : State :=
  if s.resetLow then mapPort p (fun ps => { ps with selectLow := true }) s
  else if phaseIs s p .closed && !(s.port p).selectLow then
    mapPort p (fun ps => { ps with phase := .receiving, selectLow := true }) s
  else s

def execSelectFall (p : Port) (s : State) : Host.Outcome State Fault Refusal :=
  .next (selectFallWork p s)

/-- Select rises in SPENT, or in RECEIVING with no bit clocked, or after a RESET release that found it
low: nothing is lost or raised (R166, R177). With RESET asserted only the line moves. -/
def transactionEndWork (p : Port) (s : State) : State :=
  if s.resetLow then mapPort p (fun ps => { ps with selectLow := false }) s
  else if phaseIs s p .spent || phaseIs s p .receiving || phaseIs s p .closed then
    mapPort p closePort s
  else s

def execTransactionEnd (p : Port) (s : State) : Host.Outcome State Fault Refusal :=
  .next (transactionEndWork p s)

/-- Select rises after a bit was clocked and before the frame is complete: the frame is discarded and
TORN is raised to the port (R166). Streaming is kept (R167, R168). -/
def execTornFrame (p : Port) (s : State) : Host.Outcome State Fault Refusal :=
  .next (if receiving s p then raiseTo .torn p (mapPort p closePort s) else s)

/-- The status byte: the outcome, and ATTN in bit 6 (R170). -/
def statusByte (o : CmdOutcome) (ps : PortState) : Byte :=
  outcomeCode o ||| (if attn ps then 0x40#8 else 0)

/-- The bytes of a response: status, data, check byte (R164, R180). -/
def responseBytes (ps : PortState) (r : Reply) : List Byte :=
  let covered := statusByte r.outcome ps :: r.data
  covered ++ [crc8 covered]

/-- The response is formed: ATTN is taken now, and the port begins to shift it out (R166, R170). -/
def formResponse (ps : PortState) : PortState :=
  match ps.reply with
  | some r => { ps with phase := .sending, reply := none, response := responseBytes ps r }
  | none => ps

/-- The `n`-th byte the port shifts out from the start of its response: the response's bytes, and FFh
before it is ready, after its check byte, and while RESET is asserted (R166, R177). -/
def shiftedOut (s : State) (p : Port) (n : Nat) : Byte :=
  if s.resetLow then 0xFF#8 else (s.port p).response.getD n 0xFF#8

def execResponseReady (p : Port) (s : State) : Host.Outcome State Fault Refusal :=
  .next (unlessReset (fun s => if phaseIs s p .awaiting then mapPort p formResponse s else s) s)

/-- The response's check byte has gone out: SPENT (R166). -/
def execResponseSent (p : Port) (s : State) : Host.Outcome State Fault Refusal :=
  .next (unlessReset (fun s =>
    if phaseIs s p .sending then mapPort p (fun ps => { ps with phase := .spent, response := [] }) s
    else s) s)

/-- Select rises in AWAITING or SENDING: the command stands, the rest of the response is discarded
(R166). -/
def execResponseLost (p : Port) (s : State) : Host.Outcome State Fault Refusal :=
  .next (unlessReset (fun s =>
    if phaseIs s p .awaiting || phaseIs s p .sending then mapPort p closePort s else s) s)

/-- A first byte that is no command code, on a port that is not streaming, is answered ILLEGAL at once
(R165). -/
def execIllegal (p : Port) (code : Byte) (s : State) : Host.Outcome State Fault Refusal :=
  .next (if takesCommand s p && !isCommandCode code then reply p .illegal [] s else s)

/-! ### PORT SETUP and NOTICE MASK (R173, R174) -/

def formatOf (b : Byte) : Option LeverFormat :=
  match b.toNat with
  | 0 => some .right
  | 1 => some .left
  | _ => none

def dealPortSetup (format quiet : Byte) (p : Port) (s : State) : Answer :=
  match formatOf format with
  | none => refuse .param s
  | some f =>
    if quiet = 0 then refuse .param s
    else
      unlessSame (f == (s.port p).format && quiet.toNat == (s.port p).quietLimit)
        (mapPort p (fun ps => { ps with format := f, quietLimit := quiet.toNat }) s) s

def execPortSetup (p : Port) (format quiet chk : Byte) (s : State) :
    Host.Outcome State Fault Refusal :=
  .next (commandFrame p [0x48#8, format, quiet] chk (dealPortSetup format quiet p) s)

def dealNoticeMask (mask : Half) (p : Port) (s : State) : Answer :=
  if 1024 ≤ mask.toNat then refuse .param s
  else unlessSame (mask == (s.port p).mask) (mapPort p (fun ps => { ps with mask := mask }) s) s

def execNoticeMask (p : Port) (mask : Half) (chk : Byte) (s : State) :
    Host.Outcome State Fault Refusal :=
  .next (commandFrame p (0x49#8 :: be16 mask) chk (dealNoticeMask mask p) s)

/-! ### PORT RESET (R175) -/

/-- The port's own state after PORT RESET (R175, R177). -/
def resetPort (ps : PortState) : PortState :=
  { ps with streaming := false, flags := 0, mask := allNotices, format := .right, quietLimit := 50 }

/-- PORT RESET: the port, its lever, its cues, its change list, and then its locks, so that its own
LOCKS flag is set after its flags were cleared (R96, R140, R151, R175). -/
def portResetWork (p : Port) (s : State) : State :=
  freeLocks p (fun _ => true)
    (setChanges p ⟨[], true⟩ (cuesPortReset p (leverPortReset p (mapPort p resetPort s))))

def dealPortReset (p : Port) (s : State) : Answer := taken .ok (portResetWork p s)

def execPortReset (p : Port) (chk : Byte) (s : State) : Host.Outcome State Fault Refusal :=
  .next (commandFrame p [0x4A#8] chk (dealPortReset p) s)

/-! ### ENGINE RESET (R176) -/

/-- ENGINE RESET on the TC, at once: the pending state is cleared and the reset is armed (R79). -/
def tcEngineReset (t : Tc) : Tc :=
  { t with
    main := .none, issuing := .const false, mainDeferrals := 0, manualDeferrals := 0
    keyCuts := .const none, sceneCut := none, resetPending := true }

/-- ENGINE RESET on the MES and WG, at once: the defaults of the raster in force into the next copy, and
the reload mark (R55, R107). -/
def setupEngineReset (s : State) : State :=
  { mapNext (fun _ => defaultSetup s.rtg.raster) s with wg := { s.wg with reload := true } }

/-- ENGINE RESET sent by port `p`: every block's part that is made at once (R176). -/
def engineResetWork (p : Port) (s : State) : State :=
  dropCues (fun _ => false)
    (leverEngineReset p (mapTc tcEngineReset (freeAllLocks (setupEngineReset (inputsEngineReset s)))))

def dealEngineReset (p : Port) (s : State) : Answer :=
  checked p [.setup] true s (taken .ok (engineResetWork p s))

def execEngineReset (p : Port) (chk : Byte) (s : State) : Host.Outcome State Fault Refusal :=
  .next (commandFrame p [0x4B#8] chk (dealEngineReset p) s)

/-! ### The RESET pin (R177) -/

/-- The raster the strap pins give: 2 * RSEL1 + RSEL0 (R1). -/
def strapRaster (rsel : BitVec 2) : Raster := rsel.toFin

/-- RESET is asserted: everything takes its power-on value on the strapped raster, and the select lines
keep their levels (R177). The waiting commands are not the engine's state. -/
def resetAssertWork (rsel : BitVec 2) (s : State) : State :=
  { State.powerOn (strapRaster rsel) (s.ports.map PortState.selectLow) true with
    pending := s.pending }

def execResetAssert (rsel : BitVec 2) (s : State) : Host.Outcome State Fault Refusal :=
  .next (resetAssertWork rsel s)

/-- RESET is released: every block starts from its power-on values, and time from 0 (R2, R177). -/
def execResetRelease (s : State) : Host.Outcome State Fault Refusal :=
  .next { s with resetLow := false }

end Sys2Proof.Machine
end

