-- ==== Sys2Proof/Machine/Dispatch.lean ====
section
/-!
DEFINITION. Machine/Dispatch.lean: one arm for each command and event, each a direct call of its meaning.
-/

namespace Sys2Proof.Machine

def exec (i : Instr) (s : State) : Host.Outcome State Fault Refusal :=
  match i with
  | .stateRead p chk => Sys2Proof.Machine.execStateRead p chk s
  | .timingRead p chk => Sys2Proof.Machine.execTimingRead p chk s
  | .inputRead p input chk => Sys2Proof.Machine.execInputRead p input chk s
  | .tallyRead p start count window chk => Sys2Proof.Machine.execTallyRead p start count window chk s
  | .tallyChanges p chk => Sys2Proof.Machine.execTallyChanges p chk s
  | .clipRead p chk => Sys2Proof.Machine.execClipRead p chk s
  | .cueList p chk => Sys2Proof.Machine.execCueList p chk s
  | .sceneRead p slot chk => Sys2Proof.Machine.execSceneRead p slot chk s
  | .noticeRead p chk => Sys2Proof.Machine.execNoticeRead p chk s
  | .selectBus p bus source chk => Sys2Proof.Machine.execSelectBus p bus source chk s
  | .setNext p layers type chk => Sys2Proof.Machine.execSetNext p layers type chk s
  | .setRate p rate chk => Sys2Proof.Machine.execSetRate p rate chk s
  | .keySetup p keyer flags clip gain opacity chk => Sys2Proof.Machine.execKeySetup p keyer flags clip gain opacity chk s
  | .keyCrop p keyer enable left right top bottom chk => Sys2Proof.Machine.execKeyCrop p keyer enable left right top bottom chk s
  | .keyOrder p first second third fourth chk => Sys2Proof.Machine.execKeyOrder p first second third fourth chk s
  | .wipeSetup p pattern softness rh rv cx cy flags chk => Sys2Proof.Machine.execWipeSetup p pattern softness rh rv cx cy flags chk s
  | .matteSet p matte y cb cr chk => Sys2Proof.Machine.execMatteSet p matte y cb cr chk s
  | .limiterSetup p yLo yHi cLo cHi chk => Sys2Proof.Machine.execLimiterSetup p yLo yHi cLo cHi chk s
  | .lock p mask chk => Sys2Proof.Machine.execLock p mask chk s
  | .unlock p mask chk => Sys2Proof.Machine.execUnlock p mask chk s
  | .cut p chk => Sys2Proof.Machine.execCut p chk s
  | .auto p chk => Sys2Proof.Machine.execAuto p chk s
  | .keyCut p keyer target chk => Sys2Proof.Machine.execKeyCut p keyer target chk s
  | .lever p value mode chk => Sys2Proof.Machine.execLever p value mode chk s
  | .leverRelease p chk => Sys2Proof.Machine.execLeverRelease p chk s
  | .cue p target code body => Sys2Proof.Machine.execCue p target code body s
  | .cueCancel p tag chk => Sys2Proof.Machine.execCueCancel p tag chk s
  | .sceneSave p slot mask chk => Sys2Proof.Machine.execSceneSave p slot mask chk s
  | .sceneLoad p slot mask body => Sys2Proof.Machine.execSceneLoad p slot mask body s
  | .sceneErase p slot chk => Sys2Proof.Machine.execSceneErase p slot chk s
  | .sceneRecall p slot mode chk => Sys2Proof.Machine.execSceneRecall p slot mode chk s
  | .sceneProtect p count chk => Sys2Proof.Machine.execSceneProtect p count chk s
  | .timingSetup p raster enable chk => Sys2Proof.Machine.execTimingSetup p raster enable chk s
  | .setFrameCount p value chk => Sys2Proof.Machine.execSetFrameCount p value chk s
  | .alignSetup p lMin lMax chk => Sys2Proof.Machine.execAlignSetup p lMin lMax chk s
  | .portSetup p format quiet chk => Sys2Proof.Machine.execPortSetup p format quiet chk s
  | .noticeMask p mask chk => Sys2Proof.Machine.execNoticeMask p mask chk s
  | .portReset p chk => Sys2Proof.Machine.execPortReset p chk s
  | .engineReset p chk => Sys2Proof.Machine.execEngineReset p chk s
  | .streamFrame p value mode chk => Sys2Proof.Machine.execStreamFrame p value mode chk s
  | .breakFrame p => Sys2Proof.Machine.execBreakFrame p s
  | .illegal p code => Sys2Proof.Machine.execIllegal p code s
  | .tornFrame p => Sys2Proof.Machine.execTornFrame p s
  | .responseLost p => Sys2Proof.Machine.execResponseLost p s
  | .responseReady p => Sys2Proof.Machine.execResponseReady p s
  | .resetAssert rsel => Sys2Proof.Machine.execResetAssert rsel s
  | .resetRelease => Sys2Proof.Machine.execResetRelease s
  | .referenceLineSync t => Sys2Proof.Machine.execReferenceLineSync t s
  | .referenceFrameMarker t => Sys2Proof.Machine.execReferenceFrameMarker t s
  | .inputFrameMarker input t => Sys2Proof.Machine.execInputFrameMarker input t s
  | .switchPoint xready => Sys2Proof.Machine.execSwitchPoint xready s
  | .timingSetupApply => Sys2Proof.Machine.execTimingSetupApply s
  | .issue xready => Sys2Proof.Machine.execIssue xready s
  | .goLive => Sys2Proof.Machine.execGoLive s
  | .engineResetApply => Sys2Proof.Machine.execEngineResetApply s
  | .sceneCutApply => Sys2Proof.Machine.execSceneCutApply s
  | .keyCutApply k => Sys2Proof.Machine.execKeyCutApply k s
  | .cutPerform => Sys2Proof.Machine.execCutPerform s
  | .autoStart => Sys2Proof.Machine.execAutoStart s
  | .takeover => Sys2Proof.Machine.execTakeover s
  | .manualStart => Sys2Proof.Machine.execManualStart s
  | .completion => Sys2Proof.Machine.execCompletion s
  | .quietLimitExpiry => Sys2Proof.Machine.execQuietLimitExpiry s
  | .cueRelease => Sys2Proof.Machine.execCueRelease s
  | .selectFall p => Sys2Proof.Machine.execSelectFall p s
  | .responseSent p => Sys2Proof.Machine.execResponseSent p s
  | .transactionEnd p => Sys2Proof.Machine.execTransactionEnd p s
  | .activeSample x y inputs => Sys2Proof.Machine.execActiveSample x y inputs s

end Sys2Proof.Machine
end

