-- ==== Sys2Proof/Machine/Intake.lean ====
section
/-!
DEFINITION. Machine/Intake.lean: the intake's grant of the commands that wait at their ports (R169). The
intake reads a waiting command from the bytes of its frame, in the layout of R179, and deals with it as
the row of the same bytes does.
-/

namespace Sys2Proof.Machine

/-- The intake deals with a command of port `p` from the code and the argument bytes of its frame (R179).
Bytes that spell no command, which no port passes on, are refused with ILLEGAL. -/
def dealCoded (p : Port) (code : Byte) (args : List Byte) (s : State) : Answer :=
  match code.toNat, args with
  | 0x01, [] => dealStateRead s
  | 0x02, [] => dealTimingRead s
  | 0x03, [input] => dealInputRead input s
  | 0x04, [start, count, window] => dealTallyRead start count window s
  | 0x05, [] => dealTallyChanges p s
  | 0x06, [] => dealClipRead s
  | 0x07, [] => dealCueList p s
  | 0x08, [slot] => dealSceneRead slot s
  | 0x09, [] => dealNoticeRead p s
  | 0x18, [l1, l0, h1, h0, c1, c0, d1, d0] =>
    dealLimiterSetup (half l1 l0) (half h1 h0) (half c1 c0) (half d1 d0) p s
  | 0x19, [mask] => dealLock mask p s
  | 0x1A, [mask] => dealUnlock mask p s
  | 0x23, [v1, v0, mode] => dealLever (half v1 v0) mode p s
  | 0x24, [] => dealLeverRelease p s
  | 0x30, t3 :: t2 :: t1 :: t0 :: embedded :: args => dealCue (word t3 t2 t1 t0) embedded args p s
  | 0x31, [t1, t0] => dealCueCancel (half t1 t0) p s
  | 0x38, [slot, mask] => dealSceneSave slot mask s
  | 0x3A, [slot] => dealSceneErase slot s
  | 0x3B, slot :: mask :: parts =>
    if parts.length = partsLength mask then dealSceneLoad slot mask parts s else refuse .illegal s
  | 0x3C, [count] => dealSceneProtect count p s
  | 0x40, [raster, enable] => dealTimingSetup raster enable p s
  | 0x41, [v3, v2, v1, v0] => dealSetFrameCount (word v3 v2 v1 v0) p s
  | 0x42, [lMin, lMax] => dealAlignSetup lMin lMax p s
  | 0x48, [format, quiet] => dealPortSetup format quiet p s
  | 0x49, [m1, m0] => dealNoticeMask (half m1 m0) p s
  | 0x4A, [] => dealPortReset p s
  | 0x4B, [] => dealEngineReset p s
  | _, _ => refuse .illegal s

/-- The intake deals with a waiting command frame: one of the twelve that a cue may carry, or another. -/
def dealCovered (p : Port) (covered : List Byte) (s : State) : Answer :=
  match covered with
  | [] => refuse .illegal s
  | code :: args =>
    match parseCue code args with
    | some c => dealCueCommand c p s
    | none => dealCoded p code args s

/-- The intake deals with a waiting frame of port `p`: a stream frame by its value and mode (R167), a
command frame by its bytes. -/
def dealWaiting (p : Port) (f : WaitingFrame) (s : State) : Answer :=
  if f.stream then
    match f.covered with
    | [v1, v0, mode] => dealStream (half v1 v0) mode p s
    | _ => refuse .illegal s
  else dealCovered p f.covered s

/-- The transaction in progress on the port is in AWAITING with no answer yet. -/
def awaitsAnswer (ps : PortState) : Bool := decide (ps.phase = .awaiting) && ps.reply.isNone

/-- The intake grants the oldest command that waits at port `p`, of which `rest` stay, and deals with it.
The answer goes to the transaction that awaits it; where the response was lost it goes nowhere, and the
command stands (R166, R169). -/
def grantWaiting (p : Port) (f : WaitingFrame) (rest : List WaitingFrame) (s : State) : State :=
  let a := dealWaiting p f (grant p (mapPort p (fun ps => { ps with waiting := rest }) s))
  if rest.isEmpty && awaitsAnswer (s.port p) then reply p a.outcome a.data a.state else a.state

/-- The port whose command the intake grants next: the first in the rotating order with one that waits
(R169). -/
def nextGranted (s : State) : Option Port :=
  (grantOrder s.lastGranted).find? fun p => !(s.port p).waiting.isEmpty

/-- The next grant of the intake; nothing happens when no command waits (R169). -/
def grantNext (s : State) : State :=
  match nextGranted s with
  | none => s
  | some p =>
    match (s.port p).waiting with
    | [] => s
    | f :: rest => grantWaiting p f rest s

end Sys2Proof.Machine
end

