-- ==== Sys2Proof/Machine/Step.lean ====
section
/-!
DEFINITION. Machine/Step.lean: one step: the command at the front of the queue is taken and executed.
-/

namespace Sys2Proof.Machine

/-- The commands waiting behind the first. -/
def State.withPending (s : State) (cs : List Instr) : State := { s with pending := cs }

/-- Takes the command at the front of the queue and executes it with the rest of the queue. On an empty
queue the intake makes its next grant, and the block idles when no command waits at a port (R169;
notes/assumptions/3.md, notes/assumptions/5.md). -/
def step (s : State) : Host.Outcome State Fault Refusal :=
  match s.pending with
  | [] => .next (unlessReset grantNext s)
  | c :: rest => exec c (s.withPending rest)

/-- The state with the command that a table word spells at the front of its queue; unchanged where the
word spells none. -/
def State.withFetchWord (s : State) (nbits w : Nat) : State :=
  match Sys2Proof.decodeTableWord nbits w with
  | some c => s.withPending (c :: s.pending)
  | none => s

end Sys2Proof.Machine
end

