-- ==== Sys2Proof/Safety.lean ====
section
/-!
DEFINITION. Safety.lean: the vocabulary of the claims. What a well-checked command frame is (R179), what
stands after a command is answered (R166, R170), which state the picture is rendered from (R109), and
the invariants of each block: the ranges that the state tables of the chapters give, and the rules that
tie the fields together.
-/

namespace Sys2Proof.Machine

/-! ### Command frames (R179) -/

/-- A command frame as it arrives: its port, the bytes its check byte covers, and the check byte. -/
structure Frame where
  port : Port
  covered : List Byte
  chk : Byte
  deriving DecidableEq, Repr

/-- The frame of a row whose length its own bytes give: the check byte stands after `n` body bytes. -/
def sizedFrameOf (p : Port) (head : List Byte) (n : Nat) (body : List Byte) : Option Frame :=
  (body[n]?).map fun chk => ⟨p, head ++ body.take n, chk⟩

/-- The command frame of a row, in the layout of R179; none for a row that is no command frame, and for
a CUE or SCENE LOAD whose bytes end before its check byte. -/
def commandFrameOf : Instr → Option Frame
  | .stateRead p chk => some ⟨p, [0x01#8], chk⟩
  | .timingRead p chk => some ⟨p, [0x02#8], chk⟩
  | .inputRead p i chk => some ⟨p, [0x03#8, i], chk⟩
  | .tallyRead p start count window chk => some ⟨p, [0x04#8, start, count, window], chk⟩
  | .tallyChanges p chk => some ⟨p, [0x05#8], chk⟩
  | .clipRead p chk => some ⟨p, [0x06#8], chk⟩
  | .cueList p chk => some ⟨p, [0x07#8], chk⟩
  | .sceneRead p slot chk => some ⟨p, [0x08#8, slot], chk⟩
  | .noticeRead p chk => some ⟨p, [0x09#8], chk⟩
  | .selectBus p bus src chk => some ⟨p, [0x10#8, bus, src], chk⟩
  | .setNext p layers type chk => some ⟨p, [0x11#8, layers, type], chk⟩
  | .setRate p rate chk => some ⟨p, 0x12#8 :: be16 rate, chk⟩
  | .keySetup p k f clip gain op chk => some ⟨p, [0x13#8, k, f] ++ be16 clip ++ be16 gain ++ be16 op, chk⟩
  | .keyCrop p k e l r t b chk =>
    some ⟨p, [0x14#8, k, e] ++ be16 l ++ be16 r ++ be16 t ++ be16 b, chk⟩
  | .keyOrder p a b c d chk => some ⟨p, [0x15#8, a, b, c, d], chk⟩
  | .wipeSetup p pat e rh rv cx cy f chk =>
    some ⟨p, [0x16#8, pat] ++ be16 e ++ [rh, rv] ++ be16 cx ++ be16 cy ++ [f], chk⟩
  | .matteSet p m y cb cr chk => some ⟨p, [0x17#8, m] ++ be16 y ++ be16 cb ++ be16 cr, chk⟩
  | .limiterSetup p yl yh cl ch chk =>
    some ⟨p, 0x18#8 :: (be16 yl ++ be16 yh ++ be16 cl ++ be16 ch), chk⟩
  | .lock p mask chk => some ⟨p, [0x19#8, mask], chk⟩
  | .unlock p mask chk => some ⟨p, [0x1A#8, mask], chk⟩
  | .cut p chk => some ⟨p, [0x20#8], chk⟩
  | .auto p chk => some ⟨p, [0x21#8], chk⟩
  | .keyCut p k t chk => some ⟨p, [0x22#8, k, t], chk⟩
  | .lever p v mode chk => some ⟨p, 0x23#8 :: (be16 v ++ [mode]), chk⟩
  | .leverRelease p chk => some ⟨p, [0x24#8], chk⟩
  | .cue p target code body => sizedFrameOf p (0x30#8 :: (be32 target ++ [code])) (embeddedLength code) body
  | .cueCancel p tag chk => some ⟨p, 0x31#8 :: be16 tag, chk⟩
  | .sceneSave p slot mask chk => some ⟨p, [0x38#8, slot, mask], chk⟩
  | .sceneLoad p slot mask body => sizedFrameOf p [0x3B#8, slot, mask] (partsLength mask) body
  | .sceneErase p slot chk => some ⟨p, [0x3A#8, slot], chk⟩
  | .sceneRecall p slot mode chk => some ⟨p, [0x39#8, slot, mode], chk⟩
  | .sceneProtect p count chk => some ⟨p, [0x3C#8, count], chk⟩
  | .timingSetup p raster enable chk => some ⟨p, [0x40#8, raster, enable], chk⟩
  | .setFrameCount p v chk => some ⟨p, 0x41#8 :: be32 v, chk⟩
  | .alignSetup p lo hi chk => some ⟨p, [0x42#8, lo, hi], chk⟩
  | .portSetup p format quiet chk => some ⟨p, [0x48#8, format, quiet], chk⟩
  | .noticeMask p mask chk => some ⟨p, 0x49#8 :: be16 mask, chk⟩
  | .portReset p chk => some ⟨p, [0x4A#8], chk⟩
  | .engineReset p chk => some ⟨p, [0x4B#8], chk⟩
  | .streamFrame _ _ _ _ | .breakFrame _ | .illegal _ _ | .tornFrame _ | .responseLost _
  | .responseReady _ | .resetAssert _ | .resetRelease | .referenceLineSync _
  | .referenceFrameMarker _ | .inputFrameMarker _ _ | .switchPoint _ | .timingSetupApply | .issue _
  | .goLive | .engineResetApply | .sceneCutApply | .keyCutApply _ | .cutPerform | .autoStart
  | .takeover | .manualStart | .completion | .quietLimitExpiry | .cueRelease | .selectFall _
  | .responseSent _ | .transactionEnd _ | .activeSample _ _ _ => none

/-- Port `p` reads a command frame: RESET is not asserted, the port is in RECEIVING and not
streaming. -/
def Reads (s : State) (p : Port) : Prop :=
  s.resetLow = false ∧ (s.ports.get p).phase = .receiving ∧ (s.ports.get p).streaming = false

/-- Port `p` reads a stream frame. -/
def ReadsStream (s : State) (p : Port) : Prop :=
  s.resetLow = false ∧ (s.ports.get p).phase = .receiving ∧ (s.ports.get p).streaming = true

/-- No command waits at a port, so that the intake takes the next one at once (R169). -/
def NothingWaits (s : State) : Prop := ∀ q, (s.ports.get q).waiting = []

/-- The command arrives on port `p`, which reads it, with a correct check byte (R164), and the intake is
free (R169). -/
def Accepted (c : Instr) (p : Port) (s : State) : Prop :=
  Reads s p ∧ NothingWaits s ∧ ∃ covered, commandFrameOf c = some ⟨p, covered, crc8 covered⟩

/-- The row waits at port `p` as this frame: a well-checked command frame, or a well-checked stream frame
that is no break (R167, R169). -/
def WaitsAs (c : Instr) (p : Port) (f : WaitingFrame) : Prop :=
  (f.stream = false ∧ commandFrameOf c = some ⟨p, f.covered, crc8 f.covered⟩)
  ∨ (f.stream = true ∧ ∃ value mode, c = .streamFrame p value mode (crc8 f.covered)
      ∧ f.covered = be16 value ++ [mode] ∧ value.extractLsb' 8 8 ≠ 0xFF#8)

/-- The state that rows leave, run one after another. -/
def runRows : List Instr → State → Option State
  | [], s => some s
  | c :: rest, s =>
    match exec c s with
    | .next t => runRows rest t
    | .fault _ | .refused _ => none

/-! ### What an answer leaves -/

/-- A port in AWAITING with an answer held for its response (R166, R170). -/
def PortState.awaiting (ps : PortState) (o : CmdOutcome) (data : List Byte) : PortState :=
  { ps with phase := .awaiting, reply := some ⟨o, data⟩, response := [] }

/-- The state with an answer held by port `p`, given by the port itself (R165, R168). -/
def State.portAnswers (s : State) (p : Port) (o : CmdOutcome) : State :=
  { s with ports := s.ports.set p ((s.ports.get p).awaiting o []) }

/-- The state once the intake has dealt with a command of port `p` (R169). -/
def State.answering (s : State) (p : Port) (o : CmdOutcome) (data : List Byte := []) : State :=
  { s with lastGranted := p, ports := s.ports.set p ((s.ports.get p).awaiting o data) }

/-- The state with another next copy of the setups. -/
def State.withNext (s : State) (n : Setup) : State := { s with mes := { s.mes with next := n } }

/-- The state with another lock table. -/
def State.withLocks (s : State) (locks : PerResource (Option Port)) : State :=
  { s with mes := { s.mes with locks := locks } }

/-- The state with another TC state. -/
def State.withTc (s : State) (t : Tc) : State := { s with tc := t }

/-- The state with one requested source written (R23). -/
def State.requesting (s : State) (i : InputId) (src : Source) : State :=
  { s with bi := { s.bi with inputs := s.bi.inputs.set i { s.bi.inputs.get i with requested := src } } }

/-- Every port's notice word with one flag set (R171). -/
def State.raising (s : State) (n : Notice) : State :=
  { s with ports := s.ports.map fun ps => { ps with flags := setFlag ps.flags n } }

/-- The state with one port's state changed. -/
def State.onPort (s : State) (p : Port) (f : PortState → PortState) : State :=
  { s with ports := s.ports.set p (f (s.ports.get p)) }

/-- The state with each port's state computed from the port and its state. -/
def State.onPorts (s : State) (f : Port → PortState → PortState) : State :=
  { s with ports := .build fun p => f p (s.ports.get p) }

/-- The state with another lever unit state. -/
def State.withLu (s : State) (l : Lu) : State := { s with lu := l }

/-- A port whose select line has gone high (R166). -/
def PortState.closed (ps : PortState) : PortState :=
  { ps with phase := .closed, selectLow := false, reply := none, response := [] }

/-- The resource a bus name needs (R22). -/
def busResource : BusName → Resource
  | .pgm | .pst => .bkgd
  | .fill k | .key k => .keyer k

/-- A lever value of a port with the position it has from a home end (R82). -/
def Lever.at (l : Lever) (h : HomeEnd) (v : Nat) : Lever :=
  { l with home := h, value := v, pos := leverPosition h v }

/-- The levers with no port WAITING (R89). -/
def noPickups (ls : PerPort Lever) : PerPort Lever := ls.map fun l => { l with pickup := .none }

/-! ### What the stages of a frame take leave (chapter 4) -/

/-- Port `q` loses a pickup when the controller leaves MANUAL: it was WAITING then (R89). -/
def losesPickup (s : State) (q : Port) : Bool :=
  decide (s.tc.mode = .manual) && decide ((s.lu.levers.get q).pickup = .waiting)

/-- A flag raised to a port's state when a condition holds. -/
def raisedWhen (c : Bool) (n : Notice) (ps : PortState) : PortState :=
  if c then { ps with flags := setFlag ps.flags n } else ps

/-- A lever once its port has lost its pickup, if it had one to lose. -/
def Lever.unlessWaiting (lost : Bool) (l : Lever) : Lever :=
  if lost then { l with pickup := .none } else l

/-- The lever of a port at a completion: a completing holder's home end flips, and its position is that of
its value from the new end (R94). -/
def Lever.atCompletion (flips : Bool) (l : Lever) : Lever :=
  if flips then l.at (match l.home with | .low => .high | .high => .low) l.value else l

/-- What the performing of a pending CUT or AUTO leaves: no main action, and no lever hold, with LEVER_LOST
to a holder that is no issuing port (R70, R71, R72, R93). -/
def State.mainPerformed (s : State) : State :=
  let held := s.lu.holder.isSome
  let lost := fun q => decide (s.lu.holder = some q) && !s.tc.issuing.get q
  { s with
    tc := { s.tc with
      main := .none, issuing := .const false, mainDeferrals := 0
      manualDeferrals := if held then 0 else s.tc.manualDeferrals }
    lu := { s.lu with holder := none, quiet := if held then 0 else s.lu.quiet }
    ports := .build fun q => raisedWhen (lost q) .leverLost (s.ports.get q) }

/-- The wipe direction after a completion with a type (R104). -/
def directionAfter (s : State) (type : Option TransType) : Direction :=
  if type = some .wipe ∧ s.mes.live.wipe.flipFlop = true then s.wg.direction.flip
  else s.wg.direction

/-- What a completion leaves (R76, R89, R94, R104): the role swapped when the selection holds BKGD, the
selected keyers toggled, the direction toggled after a WIPE with flip-flop, the controller IDLE at 0 with
no record, the hold released, the holder's home end flipped when its lever completed, WAITING ports told,
and DONE raised to all. -/
def State.completed (s : State) (sel : LayerSet) (type : Option TransType) (byLever : Bool) : State :=
  let flips := fun q => byLever && decide (s.lu.holder = some q)
  let leverOf := fun q => ((s.lu.levers.get q).unlessWaiting (losesPickup s q)).atCompletion (flips q)
  let portOf := fun q => raisedWhen true .done (raisedWhen (losesPickup s q) .leverLost (s.ports.get q))
  { s with
    tc := { s.tc with
      mode := .idle, pos := 0, inFlight := none
      role := if sel.bkgd then s.tc.role.swap else s.tc.role
      onAir := .build fun k => xor (sel.keyers.get k) (s.tc.onAir.get k)
      manualDeferrals := 0 }
    lu := ⟨none, 0, .build leverOf⟩
    wg := { s.wg with direction := directionAfter s type }
    ports := .build portOf }

/-- The embedded command of a cue as the row of its owner's port, with its correct check byte (R146). -/
def CueCommand.asRow (q : Port) : CueCommand → Instr
  | .selectBus bus src => .selectBus q bus src (crc8 [0x10#8, bus, src])
  | .setNext l t => .setNext q l t (crc8 [0x11#8, l, t])
  | .setRate r => .setRate q r (crc8 (0x12#8 :: be16 r))
  | .keySetup k f c g o =>
    .keySetup q k f c g o (crc8 ([0x13#8, k, f] ++ be16 c ++ be16 g ++ be16 o))
  | .keyCrop k e l r t b =>
    .keyCrop q k e l r t b (crc8 ([0x14#8, k, e] ++ be16 l ++ be16 r ++ be16 t ++ be16 b))
  | .keyOrder a b c d => .keyOrder q a b c d (crc8 [0x15#8, a, b, c, d])
  | .wipeSetup pat e rh rv cx cy f => .wipeSetup q pat e rh rv cx cy f
      (crc8 ([0x16#8, pat] ++ be16 e ++ [rh, rv] ++ be16 cx ++ be16 cy ++ [f]))
  | .matteSet m y cb cr => .matteSet q m y cb cr (crc8 ([0x17#8, m] ++ be16 y ++ be16 cb ++ be16 cr))
  | .cut => .cut q (crc8 [0x20#8])
  | .auto => .auto q (crc8 [0x21#8])
  | .keyCut k t => .keyCut q k t (crc8 [0x22#8, k, t])
  | .sceneRecall slot mode => .sceneRecall q slot mode (crc8 [0x39#8, slot, mode])

/-! ### The state at power-on -/

/-- The power-on values that the reset tables of the chapters give, on a raster (R18, R36, R56, R80,
R96, R108, R127, R138, R152, R162, R177). -/
structure PowerOn (r : Raster) (s : State) : Prop where
  rasterStrapped : s.rtg.raster = r
  follow : s.rtg.enable = false ∧ s.rtg.pendingSetup = none ∧ s.rtg.lock = .free
  reference : s.rtg.cond = .absent ∧ measuredPeriod s.rtg = 0 ∧ s.rtg.phaseErr = 0
  counts : s.rtg.miss = 0 ∧ s.rtg.inWindow = 0 ∧ s.rtg.outCount = 0
  trimZero : s.rtg.trim = 0 ∧ s.rtg.trimLimit = false
  counter : s.rtg.counter = 0
  sources : ∀ i, (s.bi.inputs.get i).requested = 124 ∧ (s.bi.inputs.get i).issued = 124
    ∧ (s.bi.inputs.get i).live = 124 ∧ (s.bi.inputs.get i).awaiting = false
  judged : ∀ i, (s.bi.inputs.get i).status = .internal ∧ (s.bi.inputs.get i).lastJudged = .internal
    ∧ (s.bi.inputs.get i).advance = none ∧ (s.bi.inputs.get i).settle = 0
    ∧ (s.bi.inputs.get i).faulted = false
  window : s.bi.lMin = 1 ∧ s.bi.lMax = 6
  lastSent : ∀ i, s.xl.lastSent.get i = none
  copies : s.mes.live = s.mes.next
  keyers : ∀ k, s.mes.next.keyers.get k =
    ⟨.linear, false, 64, 300, 4096, false, 0, activeWidth r, 0, activeHeight r⟩
  order : s.mes.next.order = ⟨.k1, .k2, .k3, .k4⟩
  transition : s.mes.next.selection = ⟨true, .const false⟩ ∧ s.mes.next.type = .mix
    ∧ s.mes.next.rate = 30
  wipe : s.mes.next.wipe = ⟨.hbar, 0, 1, 1, 2048, 2048, false, false⟩
  limiter : s.mes.next.limiter = ⟨64, 940, 64, 960⟩
  mattes : s.mes.next.matte1 = ⟨502, 512, 512⟩ ∧ s.mes.next.matte2 = ⟨940, 512, 512⟩
  locks : ∀ x, s.mes.locks.get x = none
  idle : s.tc.mode = .idle ∧ s.tc.pos = 0 ∧ s.tc.inFlight = none ∧ s.tc.role = .bga
    ∧ ∀ k, s.tc.onAir.get k = false
  noAction : s.tc.main = .none ∧ s.tc.issuing = .const false ∧ s.tc.mainDeferrals = 0
    ∧ s.tc.manualDeferrals = 0 ∧ (∀ k, s.tc.keyCuts.get k = none) ∧ s.tc.sceneCut = none
    ∧ s.tc.resetPending = false
  lever : s.lu.holder = none ∧ s.lu.quiet = 0 ∧ ∀ p, s.lu.levers.get p = ⟨.low, 0, 0, .none⟩
  direction : s.wg.direction = .normal ∧ s.wg.reload = false
  clips : s.cmp.working = 0 ∧ s.cmp.clipCount = 0 ∧ s.cmp.sticky = false
  tally : ∀ src : Source, s.tu.table[src] = ⟨false, false, ⟨false, .const false⟩, false⟩
  tallyLists : s.tu.generation = 0 ∧ ∀ p, s.tu.changes.get p = ⟨[], false⟩
  cues : s.cq.entries = [] ∧ s.cq.nextTag = 1 ∧ ∀ p, s.cq.failures.get p = none
  scenes : (∀ n, s.slot n = none) ∧ s.ss.protect = 0
  ports : ∀ p, (s.ports.get p).phase = .closed ∧ (s.ports.get p).streaming = false
    ∧ (s.ports.get p).format = .right ∧ (s.ports.get p).quietLimit = 50
    ∧ (s.ports.get p).flags = 0 ∧ (s.ports.get p).mask = 0x3FF#16 ∧ (s.ports.get p).waiting = []
  granted : s.lastGranted = .cp2

/-- The rows that act while RESET is asserted: the pin itself and the select lines (R177). -/
def actsInReset : Instr → Bool
  | .resetAssert _ | .resetRelease | .selectFall _ | .transactionEnd _ => true
  | _ => false

/-! ### The picture's state (R109) -/

/-- The rows that stand between two switch points: command frames, link events, and the reference and
input events. Left out are the switch point and its stages, the RESET pin and the samples. -/
def betweenSwitchPoints : Instr → Bool
  | .switchPoint _ | .timingSetupApply | .issue _ | .goLive | .engineResetApply | .sceneCutApply
  | .keyCutApply _ | .cutPerform | .autoStart | .takeover | .manualStart | .completion
  | .quietLimitExpiry | .cueRelease | .resetAssert _ | .resetRelease | .activeSample _ _ _ => false
  | _ => true

/-- What every active sample of a frame is rendered from, as R109 lists it: the live copy of the setups,
the controller's state, position, role, on-air flags and record, the wipe direction, the inputs' live
sources and faulted flags, and the raster in force. -/
structure Picture where
  live : Setup
  mode : TcMode
  pos : Nat
  role : Role
  onAir : PerKeyer Bool
  inFlight : Option InFlight
  direction : Direction
  sources : PerInput Source
  faulted : PerInput Bool
  raster : Raster
  deriving DecidableEq, Repr

/-- The picture's state in a state of the engine. -/
def State.picture (s : State) : Picture where
  live := s.mes.live
  mode := s.tc.mode
  pos := s.tc.pos
  role := s.tc.role
  onAir := s.tc.onAir
  inFlight := s.tc.inFlight
  direction := s.wg.direction
  sources := s.bi.inputs.map InputRec.live
  faulted := s.bi.inputs.map InputRec.faulted
  raster := s.rtg.raster

/-- The two samples that leave the engine when an active sample is rendered in a state. -/
def outputsAt (s : State) (x y : Nat) (inputs : PerInput Pixel) : Option (OutSample × OutSample) :=
  match exec (.activeSample x y inputs) s with
  | .next t =>
    match t.cmp.program, t.cmp.preview with
    | some a, some b => some (a, b)
    | _, _ => none
  | .fault _ | .refused _ => none

/-- A sample lies within the limiter ranges (R120). -/
def OutSample.Within (o : OutSample) (l : Limiter) : Prop :=
  l.yLo ≤ o.y ∧ o.y ≤ l.yHi
    ∧ ∀ cb cr, o.chroma = some (cb, cr) → l.cLo ≤ cb ∧ cb ≤ l.cHi ∧ l.cLo ≤ cr ∧ cr ≤ l.cHi

/-! ### Invariants -/

/-- The timing generator's fields lie in the ranges of chapter 1, and the lock state fits them. -/
structure TimingInv (r : Rtg) : Prop where
  trim : -200 ≤ r.trim ∧ r.trim ≤ 200
  phase : -32767 ≤ r.phaseErr ∧ r.phaseErr ≤ 32767
  periods : r.linePeriods.length ≤ 4
  free : r.lock = .free ↔ r.enable = false
  holdover : r.lock = .holdover ↔ r.miss = 3
  missRange : r.miss ≤ 3
  inWindow : r.inWindow < 4 ∧ (r.inWindow ≠ 0 → r.lock = .seeking)
  outCount : r.outCount < 2 ∧ (r.outCount ≠ 0 → r.lock = .locked)
  pendingNew : r.pendingSetup ≠ some ⟨r.raster, r.enable⟩

/-- One input record's ranges (chapter 2). -/
structure InputInv (i : InputRec) : Prop where
  settle : i.settle ≤ 2
  advance : ∀ a, i.advance = some a → a ≤ 15
  judged : i.lastJudged ≠ .settling

/-- The bus inputs, the crosspoint link and the clip counts (chapters 2 and 7). -/
structure InputsInv (s : State) : Prop where
  inputs : ∀ i, InputInv (s.bi.inputs.get i)
  thresholds : 1 ≤ s.bi.lMin ∧ s.bi.lMin ≤ s.bi.lMax ∧ s.bi.lMax ≤ 7
  sent : ∀ i src, s.xl.lastSent.get i = some src → isExternal src = true
  burst : s.xl.burst.Pairwise fun a b => inputNumber a.input < inputNumber b.input
  burstExternal : ∀ x ∈ s.xl.burst, isExternal x.source = true
  clip : s.cmp.working ≤ 16777215 ∧ s.cmp.clipCount ≤ 16777215

/-- A keyer setup lies in the ranges of section 3.1, with crop edges up to a width and a height. -/
structure KeyerInv (width height : Nat) (k : KeyerSetup) : Prop where
  clip : k.clip ≤ 1023
  gain : k.gain ≤ 4095
  opacity : k.opacity ≤ 4096
  left : k.left ≤ width
  right : k.right ≤ width
  top : k.top ≤ height
  bottom : k.bottom ≤ height

/-- A wipe setup lies in the ranges of chapter 6. -/
structure WipeInv (w : WipeSetup) : Prop where
  softness : w.softness ≤ 1024
  rh : 1 ≤ w.rh ∧ w.rh ≤ 16
  rv : 1 ≤ w.rv ∧ w.rv ≤ 16
  cx : w.cx ≤ 4095
  cy : w.cy ≤ 4095

/-- A limiter's ranges (R46). -/
structure LimiterInv (l : Limiter) : Prop where
  y : l.yLo ≤ l.yHi ∧ l.yHi ≤ 1023
  c : l.cLo ≤ l.cHi ∧ l.cHi ≤ 1023

/-- One copy of the setups lies in the ranges of section 3.1 on a raster. -/
structure CopyInv (r : Raster) (st : Setup) : Prop where
  keyers : ∀ k, KeyerInv (activeWidth r) (activeHeight r) (st.keyers.get k)
  order : st.order.toList.Nodup
  selection : st.selection.nonEmpty = true
  rate : st.rate ≤ 999
  wipe : WipeInv st.wipe
  limiter : LimiterInv st.limiter

/-- A scene record lies in the ranges of R153, with at least one group. -/
structure SceneInv (sc : Scene) : Prop where
  groups : sc.bkgd.isSome ∨ sc.keys.isSome ∨ sc.trans.isSome ∨ sc.order.isSome
  keys : ∀ ks, sc.keys = some ks → ∀ k, KeyerInv 3840 2160 (ks.get k).setup
  trans : ∀ t, sc.trans = some t → t.selection.nonEmpty = true ∧ t.rate ≤ 999 ∧ WipeInv t.wipe
  order : ∀ o, sc.order = some o → o.toList.Nodup

/-- Both copies of the setups, a pending scene cut and the scene slots lie in their ranges. -/
structure SetupInv (s : State) : Prop where
  next : CopyInv s.rtg.raster s.mes.next
  live : CopyInv s.rtg.raster s.mes.live
  sceneCut : ∀ c, s.tc.sceneCut = some c →
    ∀ k, KeyerInv (activeWidth s.rtg.raster) (activeHeight s.rtg.raster) (c.keyers.get k)
  slots : ∀ n sc, s.slot n = some sc → SceneInv sc
  protect : s.ss.protect ≤ 16

/-- An in-flight record fits the controller's state and position (R59, R60, R73). -/
structure FlightInv (mode : TcMode) (pos : Nat) (f : InFlight) : Prop where
  selection : f.selection.nonEmpty = true
  auto : mode = .auto →
    f.driver = .auto ∧ f.p0 ≤ 4095 ∧ f.r ≤ 999 ∧ f.k < f.r ∧ pos = autoPosition f.p0 f.r f.k
  manual : mode = .manual → f.driver = .lever ∧ f.p0 = 0 ∧ f.r = 0 ∧ f.k = 0

/-- One port's lever: the value in range, the position that of the value (R82). -/
structure LeverInv (l : Lever) : Prop where
  value : l.value ≤ 1023
  pos : l.pos = leverPosition l.home l.value

/-- The transition controller and the lever unit (chapters 4 and 5). -/
structure TransitionInv (s : State) : Prop where
  idle : s.tc.mode = .idle ↔ s.tc.inFlight = none
  idlePos : s.tc.mode = .idle → s.tc.pos = 0
  pos : s.tc.pos ≤ 4095
  flight : ∀ f, s.tc.inFlight = some f → FlightInv s.tc.mode s.tc.pos f
  noMain : s.tc.main = .none → s.tc.issuing = .const false ∧ s.tc.mainDeferrals = 0
  deferrals : s.tc.mainDeferrals ≤ 4 ∧ s.tc.manualDeferrals ≤ 4
  keyCuts : ∀ k c, s.tc.keyCuts.get k = some c → c.deferrals ≤ 4
  sceneCut : ∀ c, s.tc.sceneCut = some c → s.tc.mode = .idle ∧ c.deferrals ≤ 4
  autoHold : s.tc.mode = .auto → s.lu.holder = none
  noHold : s.lu.holder = none → s.lu.quiet = 0 ∧ s.tc.manualDeferrals = 0
  quiet : s.lu.quiet ≤ 255
  levers : ∀ p, LeverInv (s.lu.levers.get p)
  waiting : ∀ p, (s.lu.levers.get p).pickup = .waiting → s.tc.mode = .manual ∧ s.lu.holder = none

/-- The tally (R128, R135). -/
structure TallyInv (t : Tu) : Prop where
  layers : ∀ src : Source, t.table[src].onProgram = t.table[src].layers.nonEmpty
  lists : ∀ p, (t.changes.get p).sources.length ≤ 32 ∧ (t.changes.get p).sources.Nodup

/-- The cue queue (R141, R142, R147). -/
structure CueInv (counter : Word) (q : Cq) : Prop where
  count : q.entries.length ≤ 32
  tags : ∀ e ∈ q.entries, e.tag ≠ 0
  distinct : (q.entries.map CueEntry.tag).Nodup
  ahead : ∀ e ∈ q.entries, 1 ≤ distance counter e.target ∧ distance counter e.target ≤ 65535
  sorted : q.entries.Pairwise fun a b => distance counter a.target ≤ distance counter b.target
  embedded : ∀ e ∈ q.entries, (parseCue e.code e.args).isSome = true
  nextTag : q.nextTag ≠ 0
  failures : ∀ p f, q.failures.get p = some f → f.tag ≠ 0 ∧ f.outcome.refused = true

/-- One command port (R166, R171, R173, R174). -/
structure PortInv (resetLow : Bool) (ps : PortState) : Prop where
  flags : ps.flags.toNat < 1024
  mask : ps.mask.toNat < 1024
  quiet : 1 ≤ ps.quietLimit ∧ ps.quietLimit ≤ 255
  reply : ps.reply.isSome = true → ps.phase = .awaiting
  answered : ps.phase = .awaiting → ps.reply = none → ps.waiting ≠ []
  response : ps.response ≠ [] ↔ ps.phase = .sending
  selected : ps.phase ≠ .closed → ps.selectLow = true
  held : resetLow = true → ps.phase = .closed ∧ ps.waiting = []

/-- Every invariant of the engine. -/
structure Inv (s : State) : Prop where
  timing : TimingInv s.rtg
  inputs : InputsInv s
  setup : SetupInv s
  transition : TransitionInv s
  tally : TallyInv s.tu
  cues : CueInv s.rtg.counter s.cq
  ports : ∀ p, PortInv s.resetLow (s.ports.get p)

end Sys2Proof.Machine
end

