-- ==== Sys2Proof/Certificates/Slice0/Obligations.lean ====
section
/-!
DEFINITION. Certificates/Slice0/Obligations.lean: the statements for the provers. Each says what a command
or an event does, or what every step keeps; the docstring names the rules of spec/ it rests on. A next
state written out in full says the frame too: what it does not name is unchanged.
-/

open Sys2Proof Sys2Proof.Machine

/-! ### The machine and its reset -/

/-- A step takes the front command and runs it with the rest of the queue. A well-checked frame that arrives
while a command waits at a port joins those of its own port. On an empty queue the intake grants the oldest
command of the first port that has one, in rotating order from the port after the last granted one, with the
effect of its row; the answer goes to the transaction that awaits it. A waiting stream frame never turns
streaming on again when a break ended it meanwhile, and a command that waited through the LEVER that began
streaming leaves it on, unless it is PORT RESET. When none waits the block idles (sections 11.2 to 11.4, 11.7).
That a grant, and otherwise idling, is what a step does on an empty queue is the model's own choice,
notes/assumptions/3.md; that a command alone is dealt with in its own row, and what a waiting frame does to
streaming that changed meanwhile, are its reading, notes/assumptions/5.md. -/
def Obligations.StepRunsFrontCommand : Prop :=
  (∀ (c : Instr) (rest : List Instr) (s : State),
    step { s with pending := c :: rest } = exec c { s with pending := rest })
  ∧ (∀ s : State, s.pending = [] → NothingWaits s → step s = .next s)
  ∧ (∀ (c : Instr) (p : Port) (f : WaitingFrame) (s : State), WaitsAs c p f →
    s.resetLow = false → (s.ports.get p).phase = .receiving → (s.ports.get p).streaming = f.stream →
    ¬NothingWaits s →
    exec c s = .next (s.onPort p fun ps => { ps with
      phase := .awaiting, reply := none, response := [], waiting := ps.waiting ++ [f] }))
  ∧ ∀ (c : Instr) (p : Port) (f : WaitingFrame) (rest : List WaitingFrame) (before after : List Port)
    (s : State), WaitsAs c p f → s.resetLow = false → s.pending = [] →
    (s.ports.get p).waiting = f :: rest →
    (match s.lastGranted with
      | .cp0 => [Port.cp1, .cp2, .cp0]
      | .cp1 => [.cp2, .cp0, .cp1]
      | .cp2 => [.cp0, .cp1, .cp2]) = before ++ p :: after →
    (∀ q ∈ before, (s.ports.get q).waiting = []) →
    let alone := s.onPorts fun q ps =>
      if q = p then { ps with waiting := [], phase := .receiving, streaming := f.stream }
      else { ps with waiting := [] }
    let awaited := rest = [] ∧ (s.ports.get p).phase = .awaiting ∧ (s.ports.get p).reply = none
    ∃ u o data, exec c alone = .next u ∧ u.lastGranted = p ∧ (u.ports.get p).reply = some ⟨o, data⟩
      ∧ step s = .next (u.onPorts fun q ps =>
        let was := s.ports.get q
        if q ≠ p then { ps with waiting := was.waiting }
        else
          let dealt := { ps with streaming :=
            if f.stream then was.streaming && ps.streaming
            else ps.streaming || (was.streaming && f.covered != [0x4A#8]) }
          if awaited then dealt
          else { dealt with
            phase := was.phase, reply := was.reply, response := was.response, waiting := rest })

/-- Asserting RESET gives the power-on values of every block on the strapped raster, with the select lines
as they are; releasing it changes nothing but the pin (chapters 1 to 11, reset tables; R177). Released on
raster 0 with the select lines high it leaves `State.reset`, whose strap and lines are the model's choice,
notes/assumptions/1.md. -/
def Obligations.ResetPinGivesPowerOnState : Prop :=
  (∀ (rsel : BitVec 2) (s : State), ∃ t, exec (.resetAssert rsel) s = .next t
    ∧ PowerOn rsel.toFin t ∧ t.resetLow = true ∧ t.pending = s.pending
    ∧ ∀ p, (t.ports.get p).selectLow = (s.ports.get p).selectLow)
  ∧ (∀ s : State, exec .resetRelease s = .next { s with resetLow := false })
  ∧ ∀ s t : State, s.pending = [] → (∀ p, (s.ports.get p).selectLow = false) →
      exec (.resetAssert 0) s = .next t → exec .resetRelease t = .next State.reset

/-- While RESET is asserted everything else is held at its power-on value and the ports take no frame (R177;
section 11.7). That an event other than the pin and the select lines then changes nothing is the model's
choice, notes/assumptions/4.md; that SELECT_FALL and TRANSACTION_END move the select line alone is its
reading, notes/assumptions/11.md. -/
def Obligations.NothingActsWhileResetAsserted : Prop :=
  (∀ (c : Instr) (s : State), s.resetLow = true → actsInReset c = false → exec c s = .next s)
  ∧ ∀ (p : Port) (s : State), s.resetLow = true →
      exec (.selectFall p) s = .next (s.onPort p fun ps => { ps with selectLow := true })
      ∧ exec (.transactionEnd p) s = .next (s.onPort p fun ps => { ps with selectLow := false })

/-! ### Frames, answers and the link (chapter 11) -/

/-- The check byte closes a frame with remainder 0, and two frames that differ in one byte never have the
same check byte (section 12.4). -/
def Obligations.CheckByteDetectsOneByte : Prop :=
  (∀ bytes : List Byte, crc8 (bytes ++ [crc8 bytes]) = 0)
  ∧ ∀ (before after : List Byte) (a b : Byte), a ≠ b →
      crc8 (before ++ a :: after) ≠ crc8 (before ++ b :: after)

/-- A command frame whose check byte differs from the CRC is answered CHECK by its port: it is not granted
and changes nothing else (sections 11.1, 11.4). -/
def Obligations.WrongCheckByteIsAnsweredCheck : Prop :=
  ∀ (c : Instr) (p : Port) (covered : List Byte) (chk : Byte) (s : State),
    commandFrameOf c = some ⟨p, covered, chk⟩ → Reads s p → chk ≠ crc8 covered →
    exec c s = .next (s.portAnswers p .check)

/-- Every well-checked command is granted and answered, and a refused one returns no data and changes no
state other than the response returned to its port and the last granted port (sections 11.4, 11.5). -/
def Obligations.RefusedCommandChangesOnlyItsResponse : Prop :=
  ∀ (c : Instr) (p : Port) (s : State), Accepted c p s →
    ∃ t o data, exec c s = .next t ∧ t.lastGranted = p
      ∧ (t.ports.get p).phase = .awaiting ∧ (t.ports.get p).reply = some ⟨o, data⟩
      ∧ (o.refused = true → data = [] ∧ t = s.answering p o)

/-- The link events move a port through its phases as the table of R166 gives, and an unknown code is
answered ILLEGAL by the port (sections 11.1, 11.2).
An event in a phase it cannot occur in changes nothing: the model's choice, notes/assumptions/4.md.
A port whose select line was low when RESET was released stays CLOSED until the line has risen, and takes the
next fall (section 11.7); that TRANSACTION_END is the row of that rise is the model's reading,
notes/assumptions/11.md. -/
def Obligations.LinkEventsMoveThePhase : Prop :=
  ∀ (p : Port) (s : State), s.resetLow = false →
    let phase := (s.ports.get p).phase
    (phase = .closed → (s.ports.get p).selectLow = false →
      exec (.selectFall p) s =
        .next (s.onPort p fun ps => { ps with phase := .receiving, selectLow := true }))
    ∧ (phase = .receiving →
      exec (.tornFrame p) s =
        .next (s.onPort p fun ps => { ps.closed with flags := setFlag ps.flags .torn }))
    ∧ (phase = .sending →
      exec (.responseSent p) s = .next (s.onPort p fun ps => { ps with phase := .spent, response := [] }))
    ∧ (phase = .awaiting ∨ phase = .sending →
      exec (.responseLost p) s = .next (s.onPort p PortState.closed))
    ∧ (phase = .spent ∨ phase = .receiving →
      exec (.transactionEnd p) s = .next (s.onPort p PortState.closed))
    ∧ (phase = .closed → (s.ports.get p).selectLow = true →
      let risen := s.onPort p PortState.closed
      exec (.transactionEnd p) s = .next risen
      ∧ exec (.selectFall p) risen =
        .next (risen.onPort p fun ps => { ps with phase := .receiving, selectLow := true }))
    ∧ (∀ code : Byte, Reads s p → isCommandCode code = false →
      exec (.illegal p code) s = .next (s.portAnswers p .illegal))
    ∧ (phase ≠ .closed ∨ (s.ports.get p).selectLow = true → exec (.selectFall p) s = .next s)
    ∧ (phase ≠ .receiving → exec (.tornFrame p) s = .next s)
    ∧ (phase ≠ .awaiting → exec (.responseReady p) s = .next s)
    ∧ (phase ≠ .sending → exec (.responseSent p) s = .next s)
    ∧ (phase ≠ .awaiting → phase ≠ .sending → exec (.responseLost p) s = .next s)
    ∧ (phase = .awaiting ∨ phase = .sending → exec (.transactionEnd p) s = .next s)
    ∧ (phase ≠ .receiving → ∀ code : Byte, exec (.illegal p code) s = .next s)

/-- When the response is ready it is the status byte, the data and their check byte; the status byte holds
0 in bit 7, ATTN in bit 6 as the flags and the mask stand, and the outcome in bits 5 to 0; the attention
line is low exactly when ATTN is 1 (sections 11.5, 11.6, 12.3).
That ATTN is taken at this event and the data when the command was dealt with is the model's reading:
notes/assumptions/13.md. -/
def Obligations.ResponseCarriesStatusDataAndCheck : Prop :=
  ∀ (p : Port) (s : State) (r : Reply), s.resetLow = false →
    (s.ports.get p).phase = .awaiting → (s.ports.get p).reply = some r →
    (s.ports.get p).flags.toNat < 1024 →
    ∃ status : Byte,
      exec (.responseReady p) s = .next (s.onPort p fun ps => { ps with
        phase := .sending, reply := none
        response := status :: r.data ++ [crc8 (status :: r.data)] })
      ∧ status.getLsbD 7 = false
      ∧ status &&& 0x3F#8 = outcomeCode r.outcome
      ∧ (status.getLsbD 6 = true ↔
          ∃ n, flagSet (s.ports.get p).flags n = true ∧ flagSet (s.ports.get p).mask n = true)
      ∧ attentionLow s p = status.getLsbD 6

/-- A well-checked stream frame acts exactly as a LEVER command with the same value field, and then stays
streaming when its mode byte is A5h and leaves it otherwise; a wrong check byte is answered CHECK with
nothing else changed. A break ends streaming, is answered OK by the port, and does nothing else; a frame on
a streaming port whose first byte is FFh is a break whatever follows (section 11.3). -/
def Obligations.StreamFramesAndTheBreak : Prop :=
  (∀ (p : Port) (value : Half) (mode chk : Byte) (s : State), ReadsStream s p →
    value.extractLsb' 8 8 ≠ 0xFF#8 →
    (chk = crc8 (be16 value ++ [mode]) → NothingWaits s →
      ∃ t, exec (.lever p value 0 (crc8 (0x23#8 :: (be16 value ++ [0])))) (s.onPort p fun ps =>
          { ps with streaming := false }) = .next t
        ∧ exec (.streamFrame p value mode chk) s =
          .next (t.onPort p fun ps => { ps with streaming := decide (mode = 0xA5#8) }))
    ∧ (chk ≠ crc8 (be16 value ++ [mode]) →
      exec (.streamFrame p value mode chk) s = .next (s.portAnswers p .check)))
  ∧ (∀ (p : Port) (s : State), ReadsStream s p →
    exec (.breakFrame p) s =
      .next ((s.onPort p fun ps => { ps with streaming := false }).portAnswers p .ok)
    ∧ ∀ (value : Half) (mode chk : Byte), value.extractLsb' 8 8 = 0xFF#8 →
      exec (.streamFrame p value mode chk) s = exec (.breakFrame p) s)

/-- NOTICE READ returns the notice word and clears it; NOTICE MASK and PORT SETUP check their ranges and
write the caller's own port alone (sections 11.6, 11.7).
That the notice word is taken and cleared when NOTICE READ is dealt with is the model's reading of R172,
notes/assumptions/13.md. -/
def Obligations.NoticeAndPortSetupCommands : Prop :=
  (∀ (p : Port) (chk : Byte) (s : State), Accepted (.noticeRead p chk) p s →
    exec (.noticeRead p chk) s =
      .next ((s.onPort p fun ps => { ps with flags := 0 }).answering p .ok (be16 (s.ports.get p).flags)))
  ∧ (∀ (p : Port) (mask : Half) (chk : Byte) (s : State), Accepted (.noticeMask p mask chk) p s →
    exec (.noticeMask p mask chk) s = .next (
      if 0x400#16 ≤ mask then s.answering p .param
      else if mask = (s.ports.get p).mask then s.answering p .ignored
      else (s.onPort p fun ps => { ps with mask := mask }).answering p .ok))
  ∧ ∀ (p : Port) (format quiet chk : Byte) (s : State), Accepted (.portSetup p format quiet chk) p s →
    let f := if format = 0 then LeverFormat.right else .left
    exec (.portSetup p format quiet chk) s = .next (
      if (format ≠ 0 ∧ format ≠ 1) ∨ quiet = 0 then s.answering p .param
      else if f = (s.ports.get p).format ∧ quiet.toNat = (s.ports.get p).quietLimit then
        s.answering p .ignored
      else (s.onPort p fun ps => { ps with format := f, quietLimit := quiet.toNat }).answering p .ok)

/-- PORT RESET sets the port, its lever and its change list to their reset values, releases its hold,
removes its cues and its cue failure record, frees its locks, and raises LOCKS after the port's flags
were cleared when it freed any (section 11.7; sections 3.6, 5.6, 8.5, 9.6).
That its own transaction is left in AWAITING with the answer, on its way to SPENT, is the model's reading of
the table under R177, notes/assumptions/10.md. -/
def Obligations.PortResetClearsItsPort : Prop :=
  ∀ (p : Port) (chk : Byte) (s : State), Accepted (.portReset p chk) p s →
    let held := decide (s.lu.holder = some p)
    let freed := Resource.all.any fun r => decide (s.mes.locks.get r = some p)
    exec (.portReset p chk) s = .next { s with
      lastGranted := p
      mes := { s.mes with locks := s.mes.locks.map fun h => if h = some p then none else h }
      tc := { s.tc with manualDeferrals := if held then 0 else s.tc.manualDeferrals }
      lu := {
        holder := if held then none else s.lu.holder
        quiet := if held then 0 else s.lu.quiet
        levers := s.lu.levers.set p ⟨.low, 0, 0, .none⟩ }
      tu := { s.tu with changes := s.tu.changes.set p ⟨[], true⟩ }
      cq := { s.cq with
        entries := s.cq.entries.filter fun e => e.owner != p
        failures := s.cq.failures.set p none }
      ports := .build fun q =>
        let ps := s.ports.get q
        let ps : PortState := if q = p then
            { ps with
              phase := .awaiting, reply := some ⟨.ok, []⟩, response := [], streaming := false
              format := .right, quietLimit := 50, flags := 0, mask := 0x3FF#16 }
          else ps
        if freed then { ps with flags := setFlag ps.flags .locks } else ps }

/-- ENGINE RESET is LOCKED while another port holds SETUP. Otherwise it makes at once the parts that R176
lists: black requests, no last-sent source, the default next setups and the reload mark, free locks, a
cleared pending state with the reset armed, a released lever with no pickups, an empty cue queue, and the
notices LOCKS, LEVER_LOST and CUE_DROP (section 11.7). -/
def Obligations.EngineResetAtOnce : Prop :=
  ∀ (p : Port) (chk : Byte) (s : State), Accepted (.engineReset p chk) p s →
    let anyLock := Resource.all.any fun r => (s.mes.locks.get r).isSome
    let lost := fun q => decide (q ≠ p ∧
      (s.lu.holder = some q ∨ (s.lu.levers.get q).pickup = .waiting))
    let dropped := fun q => s.cq.entries.any fun e => e.owner == q
    let raise := fun (n : Notice) (c : Bool) (ps : PortState) =>
      if c then { ps with flags := setFlag ps.flags n } else ps
    exec (.engineReset p chk) s = .next (
      if heldByOther s p .setup then s.answering p .locked
      else ({ s with
        bi := { s.bi with inputs := s.bi.inputs.map fun i =>
          { i with requested := 124, issued := 124, awaiting := false } }
        xl := { s.xl with lastSent := .const none }
        mes := { s.mes with next := defaultSetup s.rtg.raster, locks := .const none }
        wg := { s.wg with reload := true }
        tc := { s.tc with
          main := .none, issuing := .const false, mainDeferrals := 0, manualDeferrals := 0
          keyCuts := .const none, sceneCut := none, resetPending := true }
        lu := { holder := none, quiet := 0, levers := noPickups s.lu.levers }
        cq := { s.cq with entries := [] }
        ports := .build fun q =>
          raise .cueDrop (dropped q) (raise .leverLost (lost q) (raise .locks anyLock (s.ports.get q)))
        } : State).answering p .ok)

/-! ### Resource locks (chapter 3) -/

/-- LOCK is all or nothing (R50). -/
def Obligations.LockIsAllOrNothing : Prop :=
  ∀ (p : Port) (mask chk : Byte) (s : State), Accepted (.lock p mask chk) p s →
    let named := maskResources mask
    let after : PerResource (Option Port) := .build fun r =>
      if mask.getLsbD (resourceBit r) then some p else s.mes.locks.get r
    exec (.lock p mask chk) s = .next (
      if named.any (heldByOther s p) then s.answering p .locked
      else if mask = 0 ∨ 0x80#8 ≤ mask then s.answering p .param
      else if named.all fun r => s.mes.locks.get r == some p then s.answering p .ignored
      else ((s.withLocks after).raising .locks).answering p .ok)

/-- UNLOCK frees what it names and its port holds, and nothing else (R51). -/
def Obligations.UnlockFreesOwnResources : Prop :=
  ∀ (p : Port) (mask chk : Byte) (s : State), Accepted (.unlock p mask chk) p s →
    let frees := fun r => mask.getLsbD (resourceBit r) && s.mes.locks.get r == some p
    let after : PerResource (Option Port) := .build fun r =>
      if frees r then none else s.mes.locks.get r
    exec (.unlock p mask chk) s = .next (
      if mask = 0 ∨ 0x80#8 ≤ mask then s.answering p .param
      else if Resource.all.any frees then
        ((s.withLocks after).raising .locks).answering p .ok
      else s.answering p .ignored)

/-- A held lock stays held until one of four things frees it: an UNLOCK of its holder that names it, a PORT RESET
on its holder's port, which frees all that the port holds, an ENGINE RESET from any port, which frees every
resource and is LOCKED while another port holds SETUP, or power-on, after which every resource is free (R52). -/
def Obligations.HeldLockStaysUntilFreed : Prop :=
  (∀ (c : Instr) (s t : State) (r : Resource) (p : Port), exec c s = .next t →
    s.mes.locks.get r = some p → t.mes.locks.get r ≠ some p →
    (∃ mask chk, c = .unlock p mask chk ∧ mask.getLsbD (resourceBit r) = true)
    ∨ (∃ chk, c = .portReset p chk)
    ∨ (∃ q chk, c = .engineReset q chk ∧ heldByOther s q .setup = false)
    ∨ ∃ rsel, c = .resetAssert rsel)
  ∧ ∀ (p : Port) (s : State),
    (∀ (mask chk : Byte) (r : Resource), Accepted (.unlock p mask chk) p s → mask.toNat < 128 →
      mask.getLsbD (resourceBit r) = true → s.mes.locks.get r = some p →
      ∃ t, exec (.unlock p mask chk) s = .next t ∧ t.mes.locks.get r = none)
    ∧ (∀ chk : Byte, Accepted (.portReset p chk) p s →
      ∃ t, exec (.portReset p chk) s = .next t ∧ ∀ r, t.mes.locks.get r ≠ some p)
    ∧ (∀ chk : Byte, Accepted (.engineReset p chk) p s →
      (heldByOther s p .setup = true → exec (.engineReset p chk) s = .next (s.answering p .locked))
      ∧ (heldByOther s p .setup = false →
        ∃ t, exec (.engineReset p chk) s = .next t ∧ ∀ r, t.mes.locks.get r = none))
    ∧ ∀ rsel, ∃ t, exec (.resetAssert rsel) s = .next t ∧ ∀ r, t.mes.locks.get r = none

/-- Every command that changes the lock table raises LOCKS to all ports, and one that leaves it as it was
raises none (R53); power-on changes it without a notice. -/
def Obligations.LockTableChangeRaisesLocks : Prop :=
  ∀ (c : Instr) (s t : State), (∀ rsel, c ≠ .resetAssert rsel) → exec c s = .next t →
    (t.mes.locks ≠ s.mes.locks → ∀ p, flagSet (t.ports.get p).flags .locks = true)
    ∧ (t.mes.locks = s.mes.locks → ∀ p, flagSet (t.ports.get p).flags .locks = true →
        flagSet (s.ports.get p).flags .locks = true)

/-! ### Bus and setup commands (chapters 2, 3 and 6) -/

/-- SELECT BUS: the checks in their order, and the requested source of the input that the bus names under
the program role (section 2.3). -/
def Obligations.SelectBusWritesRequest : Prop :=
  ∀ (p : Port) (bus source chk : Byte) (s : State), Accepted (.selectBus p bus source chk) p s →
    exec (.selectBus p bus source chk) s = .next (
      match busOf bus, sourceOf source with
      | none, _ => s.answering p .param
      | some b, none =>
        s.answering p (if heldByOther s p (busResource b) then .locked else .param)
      | some b, some x =>
        if heldByOther s p (busResource b) then s.answering p .locked
        else if busResource b = .bkgd ∧ (inFlightSelection s).bkgd = true then s.answering p .busy
        else if x = (s.input (busInput s.tc.role b)).requested then s.answering p .ignored
        else (s.requesting (busInput s.tc.role b) x).answering p .ok)

/-- SET NEXT and SET RATE write the next transition under TRANS (section 3.4). -/
def Obligations.SetNextAndSetRate : Prop :=
  (∀ (p : Port) (layers type chk : Byte) (s : State), Accepted (.setNext p layers type chk) p s →
    exec (.setNext p layers type chk) s = .next (
      if heldByOther s p .trans then s.answering p .locked
      else match layersOf layers, typeOf type with
        | some sel, some ty =>
          if sel.nonEmpty = false then s.answering p .param
          else if sel = s.mes.next.selection ∧ ty = s.mes.next.type then s.answering p .ignored
          else (s.withNext { s.mes.next with selection := sel, type := ty }).answering p .ok
        | _, _ => s.answering p .param))
  ∧ ∀ (p : Port) (rate : Half) (chk : Byte) (s : State), Accepted (.setRate p rate chk) p s →
    exec (.setRate p rate chk) s = .next (
      if heldByOther s p .trans then s.answering p .locked
      else if 999 < rate.toNat then (s.withNext { s.mes.next with rate := 999 }).answering p .clamped
      else if rate.toNat = s.mes.next.rate then s.answering p .ignored
      else (s.withNext { s.mes.next with rate := rate.toNat }).answering p .ok)

/-- KEY SETUP writes the five fields of a keyer's next copy, with opacity clamped to 4096; KEY CROP writes its
crop, with each edge reduced to the raster in force; KEY ORDER takes a permutation of the keyers under all
four keyer resources (sections 3.2, 3.3). -/
def Obligations.KeyerSetupCommands : Prop :=
  (∀ (p : Port) (keyer flags : Byte) (clip gain opacity : Half) (chk : Byte) (s : State),
    Accepted (.keySetup p keyer flags clip gain opacity chk) p s →
    exec (.keySetup p keyer flags clip gain opacity chk) s = .next (
      match keyerOf keyer with
      | none => s.answering p .param
      | some k =>
        let old := s.mes.next.keyers.get k
        let new := { old with
          type := if flags.getLsbD 0 then .linear else .luma
          invert := flags.getLsbD 1
          clip := clip.toNat
          gain := gain.toNat
          opacity := min opacity.toNat 4096 }
        let written :=
          s.withNext { s.mes.next with keyers := s.mes.next.keyers.set k new }
        if heldByOther s p (.keyer k) then s.answering p .locked
        else if 4 ≤ flags.toNat ∨ 1023 < clip.toNat ∨ 4095 < gain.toNat then s.answering p .param
        else if 4096 < opacity.toNat then written.answering p .clamped
        else if new = old then s.answering p .ignored
        else written.answering p .ok))
  ∧ (∀ (p : Port) (keyer enable : Byte) (left right top bottom : Half) (chk : Byte) (s : State),
    Accepted (.keyCrop p keyer enable left right top bottom chk) p s →
    let wa := activeWidth s.rtg.raster
    let ha := activeHeight s.rtg.raster
    exec (.keyCrop p keyer enable left right top bottom chk) s = .next (
      match keyerOf keyer with
      | none => s.answering p .param
      | some k =>
        let old := s.mes.next.keyers.get k
        let new := { old with
          crop := enable.getLsbD 0
          left := min left.toNat wa
          right := min right.toNat wa
          top := min top.toNat ha
          bottom := min bottom.toNat ha }
        let written :=
          s.withNext { s.mes.next with keyers := s.mes.next.keyers.set k new }
        if heldByOther s p (.keyer k) then s.answering p .locked
        else if enable ≠ 0 ∧ enable ≠ 1 then s.answering p .param
        else if wa < left.toNat ∨ wa < right.toNat ∨ ha < top.toNat ∨ ha < bottom.toNat then
          written.answering p .clamped
        else if new = old then s.answering p .ignored
        else written.answering p .ok))
  ∧ (∀ (p : Port) (a b c d chk : Byte) (s : State), Accepted (.keyOrder p a b c d chk) p s →
    exec (.keyOrder p a b c d chk) s = .next (
      if Keyer.all.any (fun k => heldByOther s p (.keyer k)) then s.answering p .locked
      else match keyerOf a, keyerOf b, keyerOf c, keyerOf d with
        | some k, some l, some m, some n =>
          if [k, l, m, n].Nodup then
            if s.mes.next.order = ⟨k, l, m, n⟩ then s.answering p .ignored
            else (s.withNext { s.mes.next with order := ⟨k, l, m, n⟩ }).answering p .ok
          else s.answering p .param
        | _, _, _, _ => s.answering p .param))

/-- WIPE SETUP writes all eight fields of the next wipe setup and sets the reload mark, unless nothing would
change at the next switch point; MATTE SET and LIMITER SETUP write the next copy under SETUP (sections 2.2,
3.5, 6.5). -/
def Obligations.WipeMatteAndLimiterSetup : Prop :=
  (∀ (p : Port) (pattern : Byte) (softness : Half) (rh rv : Byte) (cx cy : Half) (flags chk : Byte)
    (s : State), Accepted (.wipeSetup p pattern softness rh rv cx cy flags chk) p s →
    exec (.wipeSetup p pattern softness rh rv cx cy flags chk) s = .next (
      if heldByOther s p .trans then s.answering p .locked
      else match patternOf pattern with
        | none => s.answering p .param
        | some pat =>
          let w : WipeSetup := ⟨pat, softness.toNat, rh.toNat, rv.toNat, cx.toNat, cy.toNat,
            flags.getLsbD 0, flags.getLsbD 1⟩
          let reload : Direction := if flags.getLsbD 0 then .reversed else .normal
          if 1024 < softness.toNat ∨ rh.toNat = 0 ∨ 16 < rh.toNat ∨ rv.toNat = 0 ∨ 16 < rv.toNat
              ∨ 4095 < cx.toNat ∨ 4095 < cy.toNat ∨ 4 ≤ flags.toNat then
            s.answering p .param
          else if w = s.mes.next.wipe ∧ s.wg.reload = false ∧ s.wg.direction = reload then
            s.answering p .ignored
          else
            ({ s.withNext { s.mes.next with wipe := w } with
              wg := { s.wg with reload := true } } : State).answering p .ok))
  ∧ ((∀ (p : Port) (matte : Byte) (y cb cr : Half) (chk : Byte) (s : State),
    Accepted (.matteSet p matte y cb cr chk) p s →
    let colour : Pixel := ⟨y.setWidth 10, cb.setWidth 10, cr.setWidth 10⟩
    exec (.matteSet p matte y cb cr chk) s = .next (
      if heldByOther s p .setup then s.answering p .locked
      else if 1023 < y.toNat ∨ 1023 < cb.toNat ∨ 1023 < cr.toNat then s.answering p .param
      else if matte = 1 then (s.withNext { s.mes.next with matte1 := colour }).answering p .ok
      else if matte = 2 then (s.withNext { s.mes.next with matte2 := colour }).answering p .ok
      else s.answering p .param))
  ∧ ∀ (p : Port) (yLo yHi cLo cHi : Half) (chk : Byte) (s : State),
    Accepted (.limiterSetup p yLo yHi cLo cHi chk) p s →
    let new : Limiter := ⟨yLo.toNat, yHi.toNat, cLo.toNat, cHi.toNat⟩
    exec (.limiterSetup p yLo yHi cLo cHi chk) s = .next (
      if heldByOther s p .setup then s.answering p .locked
      else if 1023 < yLo.toNat ∨ 1023 < yHi.toNat ∨ 1023 < cLo.toNat ∨ 1023 < cHi.toNat
          ∨ yHi < yLo ∨ cHi < cLo then s.answering p .param
      else if new = s.mes.next.limiter then s.answering p .ignored
      else (s.withNext { s.mes.next with limiter := new }).answering p .ok))

/-- ALIGN SETUP and SCENE PROTECT write their values at once under SETUP; TIMING SETUP leaves a pending timing
setup, which a pair equal to the one in force withdraws (sections 1.5, 2.5, 10.2). -/
def Obligations.AlignProtectAndTimingSetup : Prop :=
  ((∀ (p : Port) (lMin lMax chk : Byte) (s : State), Accepted (.alignSetup p lMin lMax chk) p s →
    exec (.alignSetup p lMin lMax chk) s = .next (
      if heldByOther s p .setup then s.answering p .locked
      else if lMin = 0 ∨ 7 < lMin.toNat ∨ lMax = 0 ∨ 7 < lMax.toNat ∨ lMax < lMin then
        s.answering p .param
      else if lMin.toNat = s.bi.lMin ∧ lMax.toNat = s.bi.lMax then s.answering p .ignored
      else
        ({ s with bi := { s.bi with lMin := lMin.toNat, lMax := lMax.toNat } } : State).answering
          p .ok))
  ∧ ∀ (p : Port) (count chk : Byte) (s : State), Accepted (.sceneProtect p count chk) p s →
    exec (.sceneProtect p count chk) s = .next (
      if heldByOther s p .setup then s.answering p .locked
      else if 16 < count.toNat then s.answering p .param
      else if count.toNat = s.ss.protect then s.answering p .ignored
      else ({ s with ss := { s.ss with protect := count.toNat } } : State).answering p .ok))
  ∧ (∀ (p : Port) (raster enable chk : Byte) (s : State), Accepted (.timingSetup p raster enable chk) p s →
    exec (.timingSetup p raster enable chk) s = .next (
      if heldByOther s p .setup then s.answering p .locked
      else if 3 < raster.toNat ∨ (enable ≠ 0 ∧ enable ≠ 1) then s.answering p .param
      else if raster.toNat ≠ s.rtg.raster.val ∧ s.tc.mode ≠ .idle then s.answering p .busy
      else if raster.toNat = s.rtg.raster.val ∧ enable.getLsbD 0 = s.rtg.enable then
        (if s.rtg.pendingSetup = none then s.answering p .ignored
        else ({ s with rtg := { s.rtg with pendingSetup := none } } : State).answering p .ok)
      else
        ({ s with rtg := { s.rtg with
          pendingSetup := some ⟨Fin.ofNat 4 raster.toNat, enable.getLsbD 0⟩ } } : State).answering
            p .ok))

/-! ### Transition commands and the lever (chapters 4 and 5) -/

/-- CUT and AUTO leave a pending main action, after the lock test of TRANS and the selection concerned: the
in-flight selection while a transition runs, the next selection in IDLE. KEY CUT leaves its target pending
for its keyer, over an earlier target with its deferral count kept (sections 3.6, 4.2). -/
def Obligations.CutAutoAndKeyCutPend : Prop :=
  (∀ (p : Port) (chk : Byte) (s : State),
    let sel := if s.tc.mode = .idle then s.mes.next.selection else inFlightSelection s
    let locked := heldByOther s p .trans || (sel.bkgd && heldByOther s p .bkgd)
      || Keyer.all.any fun k => sel.keyers.get k && heldByOther s p (.keyer k)
    let only : PerPort Bool := (PerPort.const false).set p true
    (Accepted (.cut p chk) p s →
      exec (.cut p chk) s = .next (
        if locked then s.answering p .locked
        else (s.withTc (match s.tc.main with
          | .none => { s.tc with main := .cut, issuing := only, mainDeferrals := 0 }
          | .auto => { s.tc with main := .cut, issuing := only }
          | .cut => { s.tc with issuing := s.tc.issuing.set p true })).answering p .ok))
    ∧ (Accepted (.auto p chk) p s →
      exec (.auto p chk) s = .next (
        if locked then s.answering p .locked
        else if s.tc.mode = .auto then s.answering p .busy
        else match s.tc.main with
          | .cut => s.answering p .busy
          | .auto => (s.withTc { s.tc with issuing := s.tc.issuing.set p true }).answering p .ok
          | .none => (s.withTc { s.tc with
              main := .auto, issuing := only, mainDeferrals := 0 }).answering p .ok)))
  ∧ (∀ (p : Port) (keyer target chk : Byte) (s : State), Accepted (.keyCut p keyer target chk) p s →
    exec (.keyCut p keyer target chk) s = .next (
      match keyerOf keyer with
      | none => s.answering p .param
      | some k =>
        if heldByOther s p (.keyer k) then s.answering p .locked
        else if target ≠ 0 ∧ target ≠ 1 then s.answering p .param
        else if (inFlightSelection s).keyers.get k then s.answering p .busy
        else if target.getLsbD 0 = s.tc.onAir.get k ∧ s.tc.keyCuts.get k = none then
          s.answering p .ignored
        else
          (s.withTc { s.tc with keyCuts := s.tc.keyCuts.set k (some ⟨target.getLsbD 0,
            match s.tc.keyCuts.get k with
            | some c => c.deferrals
            | none => 0⟩) }).answering p .ok))

/-- A LEVER command, case by case as the table of R84 gives: LOCKED by the lock table, BUSY in AUTO, LOCKED
against another holder, re-home and claim in IDLE, pickup and PENDING in MANUAL, and the holder's own
values; a taken value with mode byte A5h enters streaming. LEVER RELEASE from the holder releases the hold,
and with it a lever start that waited; from any other port it is IGNORED (sections 5.1 to 5.3, 5.5). -/
def Obligations.LeverValueAndRelease : Prop :=
  (∀ (p : Port) (value : Half) (mode chk : Byte) (s : State), Accepted (.lever p value mode chk) p s →
    let v := match (s.ports.get p).format with
      | .right => value.toNat % 1024
      | .left => value.toNat / 64
    let l := s.lu.levers.get p
    let pl := leverPosition l.home v
    let waiting : Lever := { l.at l.home v with pickup := .waiting }
    let streaming := fun t : State =>
      if mode = 0xA5#8 then t.onPort p fun ps => { ps with streaming := true } else t
    let lost := fun q => decide (q ≠ p) && decide ((s.lu.levers.get q).pickup = .waiting)
    let pickup := (s.tc.pos ≤ pl + 64 ∧ pl ≤ s.tc.pos + 64)
      ∨ (l.pos < s.tc.pos ∧ s.tc.pos < pl) ∨ (pl < s.tc.pos ∧ s.tc.pos < l.pos)
    (lockedOut s p (transResources s) = true →
      exec (.lever p value mode chk) s = .next (s.answering p .locked))
    ∧ (lockedOut s p (transResources s) = false →
      (s.tc.mode = .auto → exec (.lever p value mode chk) s = .next (s.answering p .busy))
      ∧ (∀ h, s.tc.mode ≠ .auto → s.lu.holder = some h → h ≠ p →
        exec (.lever p value mode chk) s = .next (s.answering p .locked))
      ∧ (s.tc.mode = .idle → s.lu.holder = none → v ≤ 32 →
        exec (.lever p value mode chk) s = .next (streaming
          ((s.withLu { s.lu with levers := s.lu.levers.set p (l.at .low v) }).answering p .ok)))
      ∧ (s.tc.mode = .idle → s.lu.holder = none → 991 ≤ v →
        exec (.lever p value mode chk) s = .next (streaming
          ((s.withLu { s.lu with levers := s.lu.levers.set p (l.at .high v) }).answering p .ok)))
      ∧ (s.tc.mode = .idle → s.lu.holder = none → 33 ≤ v → v ≤ 990 →
        exec (.lever p value mode chk) s = .next (streaming
          ((s.withLu ⟨some p, 0, s.lu.levers.set p (l.at l.home v)⟩).answering p .ok)))
      ∧ (s.tc.mode = .manual → s.lu.holder = none → pickup →
        exec (.lever p value mode chk) s = .next (streaming
          (((s.withLu ⟨some p, 0, noPickups (s.lu.levers.set p (l.at l.home v))⟩).onPorts fun q ps =>
            raisedWhen (lost q) .leverLost ps).answering p .ok)))
      ∧ (s.tc.mode = .manual → s.lu.holder = none → ¬pickup →
        exec (.lever p value mode chk) s = .next (streaming
          ((s.withLu { s.lu with levers := s.lu.levers.set p waiting }).answering p .pending)))
      ∧ (s.tc.mode ≠ .auto → s.lu.holder = some p →
        exec (.lever p value mode chk) s = .next (streaming
          ((s.withLu ⟨s.lu.holder, 0, s.lu.levers.set p (l.at l.home v)⟩).answering p .ok)))))
  ∧ (∀ (p : Port) (chk : Byte) (s : State), Accepted (.leverRelease p chk) p s →
    exec (.leverRelease p chk) s = .next (
      if s.lu.holder = some p then
        ({ s with
          lu := { s.lu with holder := none, quiet := 0 }
          tc := { s.tc with manualDeferrals := 0 } } : State).answering p .ok
      else s.answering p .ignored))

/-! ### The cue queue (chapter 9) -/

/-- CUE: the checks in their order; a taken cue stands after every entry whose distance is not greater and
before every entry whose distance is greater, under the first free tag from next tag on (65535 is followed
by 1), which is returned (sections 9.1, 9.2). -/
def Obligations.CueIsQueuedByDistance : Prop :=
  ∀ (p : Port) (target : Word) (code : Byte) (body : List Byte) (s : State),
    Accepted (.cue p target code body) p s → CueInv s.rtg.counter s.cq →
    let args := body.take (embeddedLength code)
    let d := (target - s.rtg.counter).toNat
    let following : Half → Half := fun tag => if tag = 0xFFFF#16 then 1 else tag + 1
    (parseCue code args = none →
      exec (.cue p target code body) s = .next (s.answering p .param))
    ∧ ∀ cmd, parseCue code args = some cmd →
      (lockedOut s p (cueResources s cmd) = true →
        exec (.cue p target code body) s = .next (s.answering p .locked))
      ∧ (lockedOut s p (cueResources s cmd) = false →
        (cueInRange cmd = false ∨ (65536 ≤ d ∧ d ≤ 2147483648) →
          exec (.cue p target code body) s = .next (s.answering p .param))
        ∧ (cueInRange cmd = true → ¬(65536 ≤ d ∧ d ≤ 2147483648) →
          (s.cq.entries.length = 32 →
            exec (.cue p target code body) s = .next (s.answering p .full))
          ∧ (s.cq.entries.length < 32 → d = 0 ∨ 2147483648 < d →
            exec (.cue p target code body) s = .next (s.answering p .late))
          ∧ (s.cq.entries.length < 32 → d ≠ 0 → d ≤ 2147483648 →
            ∃ tag front back tries, s.cq.entries = front ++ back
              ∧ (∀ e ∈ front, (e.target - s.rtg.counter).toNat ≤ d)
              ∧ (∀ e ∈ back, d < (e.target - s.rtg.counter).toNat)
              ∧ tag ≠ 0 ∧ (∀ e ∈ s.cq.entries, e.tag ≠ tag)
              ∧ tag = following^[tries] s.cq.nextTag
              ∧ (∀ n, n < tries → ∃ e ∈ s.cq.entries, e.tag = following^[n] s.cq.nextTag)
              ∧ exec (.cue p target code body) s = .next
                (({ s with cq := { s.cq with
                  entries := front ++ ⟨tag, p, target, code, args⟩ :: back
                  nextTag := following tag } } : State).answering p .ok
                    (be16 tag)))))

/-- CUE CANCEL removes the caller's own entries: all of them with tag 0, one by its tag; another port's entry
is LOCKED and an unknown tag PARAM. CUE LIST returns the caller's last cue failure, the number of entries
and the entries in queue order, and changes nothing (section 9.4). -/
def Obligations.CueCancelAndCueList : Prop :=
  (∀ (p : Port) (tag : Half) (chk : Byte) (s : State), Accepted (.cueCancel p tag chk) p s →
    let keeping := fun keep : CueEntry → Bool =>
      ({ s with cq := { s.cq with entries := s.cq.entries.filter keep } } : State)
    (tag = 0 → exec (.cueCancel p tag chk) s =
      .next ((keeping fun e => e.owner != p).answering p .ok))
    ∧ (tag ≠ 0 → CueInv s.rtg.counter s.cq →
      (∀ e ∈ s.cq.entries, e.tag = tag →
        exec (.cueCancel p tag chk) s = .next (
          if e.owner = p then (keeping fun x => x.tag != tag).answering p .ok
          else s.answering p .locked))
      ∧ ((∀ e ∈ s.cq.entries, e.tag ≠ tag) →
        exec (.cueCancel p tag chk) s = .next (s.answering p .param))))
  ∧ (∀ (p : Port) (chk : Byte) (s : State), Accepted (.cueList p chk) p s →
    exec (.cueList p chk) s = .next (s.answering p .ok (
      (match s.cq.failures.get p with
        | some f => be16 f.tag ++ [outcomeCode f.outcome]
        | none => [0, 0, 0])
      ++ [BitVec.ofNat 8 s.cq.entries.length]
      ++ s.cq.entries.flatMap fun e =>
        be16 e.tag ++ [portCode (some e.owner)] ++ be32 e.target ++ [e.code])))

/-- SET FRAME COUNT sets the counter at once, keeps exactly the entries whose new distance lies in
1..65535, and raises CUE_DROP once to each owner that lost any (sections 1.5, 9.5). -/
def Obligations.SetFrameCountPrunesCues : Prop :=
  ∀ (p : Port) (value : Word) (chk : Byte) (s : State), Accepted (.setFrameCount p value chk) p s →
    let stays := fun e : CueEntry => decide (1 ≤ (e.target - value).toNat ∧ (e.target - value).toNat ≤ 65535)
    exec (.setFrameCount p value chk) s = .next (
      if heldByOther s p .setup then s.answering p .locked
      else (({ s with
        rtg := { s.rtg with counter := value }
        cq := { s.cq with entries := s.cq.entries.filter stays } } : State).onPorts fun q ps =>
          raisedWhen (s.cq.entries.any fun e => e.owner == q && !stays e) .cueDrop ps).answering p .ok)

/-- A due entry leaves the queue and its command is dealt with exactly as the same command of its owner's
port would be. A refused one changes only the owner's failure record and CUE_FAIL flag; a taken one has
the command's effect, with no response and no grant to a port; commands that wait at the ports go on waiting,
since released cues come first (sections 9.3, 11.4).
The rows of this statement run their own step alone: that is the model's choice, notes/assumptions/2.md. -/
def Obligations.ReleasedCueActsAsItsPortsCommand : Prop :=
  ∀ (s : State) (front back : List CueEntry) (e : CueEntry) (cmd : CueCommand),
    s.resetLow = false → s.cq.entries = front ++ e :: back →
    (∀ x ∈ front, x.target ≠ s.rtg.counter) → e.target = s.rtg.counter →
    parseCue e.code e.args = some cmd →
    let left : State := { s with cq := { s.cq with entries := front ++ back } }
    ∃ u o data,
      exec (cmd.asRow e.owner) (left.onPorts fun q ps =>
        { ps with
          phase := if q = e.owner then .receiving else ps.phase
          streaming := if q = e.owner then false else ps.streaming
          waiting := [] }) = .next u
      ∧ (u.ports.get e.owner).reply = some ⟨o, data⟩
      ∧ exec .cueRelease s = .next (
        if o.refused then
          (({ left with cq := { left.cq with
            failures := s.cq.failures.set e.owner (some ⟨e.tag, o⟩) } } : State).onPort e.owner
              fun ps => { ps with flags := setFlag ps.flags .cueFail })
        else { u with ports := s.ports, lastGranted := s.lastGranted })

/-! ### The scene store (chapter 10) -/

/-- SCENE SAVE, SCENE LOAD and SCENE ERASE refuse a protected slot with LOCKED, then check their ranges,
and write the named slot alone (section 10.3). -/
def Obligations.SceneWritersObeyProtection : Prop :=
  ∀ (p : Port) (slot mask chk : Byte) (body : List Byte) (s : State),
    let isLocked := slot.toNat ≤ 15 ∧ slot.toNat < s.ss.protect
    let parts := body.take (partsLength mask)
    let saved : Scene :=
      { bkgd := if mask.getLsbD 0 then
          some ⟨(s.input (pgmInput s.tc.role)).requested, (s.input (pstInput s.tc.role)).requested⟩
          else none
        keys := if mask.getLsbD 1 then
          some (.build fun k => ⟨(s.input (.fill k)).requested, (s.input (.key k)).requested,
            s.mes.next.keyers.get k, s.tc.onAir.get k⟩)
          else none
        trans := if mask.getLsbD 2 then
          some ⟨s.mes.next.selection, s.mes.next.type, s.mes.next.rate, s.mes.next.wipe⟩ else none
        order := if mask.getLsbD 3 then some s.mes.next.order else none }
    (Accepted (.sceneSave p slot mask chk) p s →
      exec (.sceneSave p slot mask chk) s = .next (
        if isLocked then s.answering p .locked
        else match slotOf slot with
          | none => s.answering p .param
          | some n =>
            if mask = 0 ∨ 16 ≤ mask.toNat then s.answering p .param
            else (setSlot n (some saved) s).answering p .ok))
    ∧ (Accepted (.sceneLoad p slot mask body) p s →
      exec (.sceneLoad p slot mask body) s = .next (
        if isLocked then s.answering p .locked
        else match slotOf slot, sceneOf mask parts with
          | some n, some sc => (setSlot n (some sc) s).answering p .ok
          | _, _ => s.answering p .param))
    ∧ (Accepted (.sceneErase p slot chk) p s →
      exec (.sceneErase p slot chk) s = .next (
        if isLocked then s.answering p .locked
        else match slotOf slot with
          | none => s.answering p .param
          | some n =>
            if s.slot n = none then s.answering p .ignored
            else (setSlot n none s).answering p .ok))

/-- A scene record and its bytes say the same: the bytes of a record in range read back as that record, and
a record read from bytes returns those bytes, so what SCENE READ returns loads unchanged (sections 10.3,
12.6). -/
def Obligations.SceneRecordsReadBackUnchanged : Prop :=
  (∀ sc : Scene, SceneInv sc → ∃ mask parts, sceneBytes sc = mask :: parts
    ∧ parts.length = partsLength mask ∧ sceneOf mask parts = some sc)
  ∧ ∀ (mask : Byte) (parts : List Byte) (sc : Scene), parts.length = partsLength mask →
    sceneOf mask parts = some sc → sceneBytes sc = mask :: parts

/-- SCENE READ returns the record of its slot, or the single byte 0 for an empty one; TALLY READ returns count
entries of the published table from the start source on, wrapping in the aligned window of its size; neither
changes anything. TALLY CHANGES returns the generation, the caller's overrun flag and its change list, and
then empties the list and clears the flag, for the caller alone; CLIP READ returns the clip count and the
sticky flag, and then clears the flag, for every port (sections 7.7, 8.4, 10.3).
That TALLY CHANGES and CLIP READ take and clear their data when they are dealt with is the model's reading of
R136 and R125, notes/assumptions/13.md. -/
def Obligations.SceneTallyAndClipReads : Prop :=
  ((∀ (p : Port) (slot chk : Byte) (s : State), Accepted (.sceneRead p slot chk) p s →
    exec (.sceneRead p slot chk) s = .next (
      match slotOf slot with
      | none => s.answering p .param
      | some n => s.answering p .ok (match s.slot n with
        | none => [0]
        | some sc => sceneBytes sc)))
  ∧ ∀ (p : Port) (start count window chk : Byte) (s : State),
    Accepted (.tallyRead p start count window chk) p s →
    (127 < start.toNat ∨ count = 0 ∨ 128 < count.toNat ∨ 3 < window.toNat →
      exec (.tallyRead p start count window chk) s = .next (s.answering p .param))
    ∧ (start.toNat ≤ 127 → count ≠ 0 → count.toNat ≤ 128 → window.toNat ≤ 3 →
      let size := 16 * 2 ^ window.toNat
      let first := start.toNat - start.toNat % size
      ∃ data : List Byte, data.length = count.toNat
        ∧ (∀ j, j < count.toNat → ∃ src : Source,
          src.val = first + (start.toNat - first + j) % size
            ∧ data[j]? = some (tallyByte s.tu.table[src]))
        ∧ exec (.tallyRead p start count window chk) s = .next (s.answering p .ok data)))
  ∧ ((∀ (p : Port) (chk : Byte) (s : State), Accepted (.tallyChanges p chk) p s →
    let c := s.tu.changes.get p
    exec (.tallyChanges p chk) s = .next
      (({ s with tu := { s.tu with changes := s.tu.changes.set p ⟨[], false⟩ } } : State).answering p .ok
        (be16 s.tu.generation ++ [if c.overrun then 1 else 0, BitVec.ofNat 8 c.sources.length]
          ++ c.sources.map fun src => BitVec.ofNat 8 src.val)))
  ∧ ∀ (p : Port) (chk : Byte) (s : State), Accepted (.clipRead p chk) p s →
    exec (.clipRead p chk) s = .next
      (({ s with cmp := { s.cmp with sticky := false } } : State).answering p .ok
        [BitVec.ofNat 8 (s.cmp.clipCount / 65536), BitVec.ofNat 8 (s.cmp.clipCount / 256),
          BitVec.ofNat 8 s.cmp.clipCount, if s.cmp.sticky then 1 else 0]))

/-- SCENE RECALL in DIRECT mode: the checks in their order, the requested sources of the roles and keyers,
the scene cut with clamped crops, the next transition with the reload mark, and the order. A mode byte other
than 00h and 01h is PARAM, after the lock test of the record's groups (section 10.4). -/
def Obligations.DirectRecallHandsOverTheScene : Prop :=
  (∀ (p : Port) (slot mode chk : Byte) (s : State), Accepted (.sceneRecall p slot mode chk) p s →
    mode ≠ 0 → mode ≠ 1 →
    exec (.sceneRecall p slot mode chk) s = .next (s.answering p (
      match recordAt s slot with
      | some sc => if lockedOut s p (sceneResources sc) then .locked else .param
      | none => .param)))
  ∧ ∀ (p : Port) (slot chk : Byte) (s : State), Accepted (.sceneRecall p slot 0 chk) p s →
    (recordAt s slot = none → exec (.sceneRecall p slot 0 chk) s = .next (s.answering p .param))
    ∧ ∀ sc, recordAt s slot = some sc →
      let sourceOf := fun i : InputId => match i with
        | .bga | .bgb => sc.bkgd.map fun b =>
            if i = pgmInput s.tc.role then b.program else b.preset
        | .fill k => sc.keys.map fun ks => (ks.get k).fill
        | .key k => sc.keys.map fun ks => (ks.get k).key
      let after := fun i : InputId => match sourceOf i with
        | some src => { s.bi.inputs.get i with requested := src }
        | none => s.bi.inputs.get i
      let next := { s.mes.next with
        selection := (sc.trans.map SceneTrans.selection).getD s.mes.next.selection
        type := (sc.trans.map SceneTrans.type).getD s.mes.next.type
        rate := (sc.trans.map SceneTrans.rate).getD s.mes.next.rate
        wipe := (sc.trans.map SceneTrans.wipe).getD s.mes.next.wipe
        order := sc.order.getD s.mes.next.order }
      let cut := match sc.keys with
        | some ks => some (⟨ks.map fun k => clampCrop s.rtg.raster k.setup,
            ks.map SceneKeyer.onAir, sc.bkgd.isSome, 0⟩ : SceneCut)
        | none => s.tc.sceneCut
      let clamped := match sc.keys with
        | some ks => Keyer.all.any fun k => cropBeyond s.rtg.raster (ks.get k).setup
        | none => false
      exec (.sceneRecall p slot 0 chk) s = .next (
        if lockedOut s p (sceneResources sc) then s.answering p .locked
        else if s.tc.mode ≠ .idle then s.answering p .busy
        else ({ s.withNext next with
          bi := { s.bi with inputs := buildInputs after }
          tc := { s.tc with sceneCut := cut }
          wg := { s.wg with reload := s.wg.reload || sc.trans.isSome } } : State).answering p
            (if clamped then .clamped else .ok))

/-- SCENE RECALL in PREVIEW mode: the program source goes to the PST-role input, the keyers off air take the
scene's sources and setups, and the next transition takes the derived selection (section 10.4). -/
def Obligations.PreviewRecallLaysOutTheScene : Prop :=
  ∀ (p : Port) (slot chk : Byte) (s : State), Accepted (.sceneRecall p slot 1 chk) p s →
    (recordAt s slot = none → exec (.sceneRecall p slot 1 chk) s = .next (s.answering p .param))
    ∧ ∀ sc, recordAt s slot = some sc →
      let taken := fun k : Keyer => sc.keys.bind fun ks =>
        if s.tc.onAir.get k then none else some (ks.get k)
      let sourceOf := fun i : InputId => match i with
        | .bga | .bgb => if i = pstInput s.tc.role then sc.bkgd.map SceneBkgd.program else none
        | .fill k => (taken k).map SceneKeyer.fill
        | .key k => (taken k).map SceneKeyer.key
      let after := fun i : InputId => match sourceOf i with
        | some src => { s.bi.inputs.get i with requested := src }
        | none => s.bi.inputs.get i
      let differs : LayerSet :=
        ⟨(sc.bkgd.map fun b => b.program != (s.input (pgmInput s.tc.role)).live).getD false,
          .build fun k => (sc.keys.map fun ks => (ks.get k).onAir != s.tc.onAir.get k).getD false⟩
      let derived : LayerSet := if differs.nonEmpty then differs else ⟨true, .const false⟩
      let keyers : PerKeyer KeyerSetup := .build fun k => match taken k with
        | some sk => clampCrop s.rtg.raster sk.setup
        | none => s.mes.next.keyers.get k
      let next := { s.mes.next with
        keyers := keyers
        selection := if sc.trans.isSome then derived else s.mes.next.selection
        type := (sc.trans.map SceneTrans.type).getD s.mes.next.type
        rate := (sc.trans.map SceneTrans.rate).getD s.mes.next.rate
        wipe := (sc.trans.map SceneTrans.wipe).getD s.mes.next.wipe
        order := sc.order.getD s.mes.next.order }
      let clamped := Keyer.all.any fun k => match taken k with
        | some sk => cropBeyond s.rtg.raster sk.setup
        | none => false
      exec (.sceneRecall p slot 1 chk) s = .next (
        if lockedOut s p (sceneResources sc) then s.answering p .locked
        else if s.tc.mode ≠ .idle then s.answering p .busy
        else ({ s.withNext next with
          bi := { s.bi with inputs := buildInputs after }
          wg := { s.wg with reload := s.wg.reload || sc.trans.isSome } } : State).answering p
            (if clamped then .clamped else .ok))

/-! ### Read commands (chapters 1, 2, 3, 7 and 8) -/

/-- STATE READ, TIMING READ and INPUT READ return the fields of the state in the layouts of section 12.5
and change nothing (sections 1.5, 2.7, 3.7). That INPUT READ returns an issued source that an ENGINE RESET has
just set, before the next switch point, is the model's choice, notes/assumptions/22.md. -/
def Obligations.StateTimingAndInputReads : Prop :=
  (∀ (p : Port) (chk : Byte) (s : State), Accepted (.stateRead p chk) p s →
    exec (.stateRead p chk) s = .next (s.answering p .ok (
      [modeCode s.tc.mode] ++ be16 (BitVec.ofNat 16 s.tc.pos)
      ++ [roleCode s.tc.role, layersCode ⟨false, s.tc.onAir⟩,
        layersCode (match s.tc.inFlight with
          | some f => f.selection
          | none => ⟨false, .const false⟩),
        layersCode s.mes.next.selection, typeCode s.mes.next.type]
      ++ be16 (BitVec.ofNat 16 s.mes.next.rate)
      ++ [portCode s.lu.holder, mainCode s.tc.main,
        BitVec.ofNat 8 (keyCutCode s.tc.keyCuts.k1 + 4 * keyCutCode s.tc.keyCuts.k2
          + 16 * keyCutCode s.tc.keyCuts.k3 + 64 * keyCutCode s.tc.keyCuts.k4),
        if s.tc.sceneCut.isSome then 1 else 0]
      ++ be32 s.rtg.counter ++ [lockCode s.rtg.lock]
      ++ [portCode (s.mes.locks.get .bkgd), portCode (s.mes.locks.get (.keyer .k1)),
        portCode (s.mes.locks.get (.keyer .k2)), portCode (s.mes.locks.get (.keyer .k3)),
        portCode (s.mes.locks.get (.keyer .k4)), portCode (s.mes.locks.get .trans),
        portCode (s.mes.locks.get .setup)])))
  ∧ (∀ (p : Port) (chk : Byte) (s : State), Accepted (.timingRead p chk) p s →
    exec (.timingRead p chk) s = .next (s.answering p .ok (
      [lockCode s.rtg.lock, BitVec.ofNat 8 s.rtg.raster.val,
        BitVec.ofNat 8 ((if s.rtg.enable then 1 else 0) + 2 * condCode s.rtg.cond
          + if s.rtg.trimLimit then 8 else 0)]
      ++ be16 (BitVec.ofInt 16 s.rtg.phaseErr) ++ be16 (BitVec.ofInt 16 s.rtg.trim)
      ++ be16 (BitVec.ofNat 16 (measuredPeriod s.rtg)) ++ be32 s.rtg.counter)))
  ∧ ∀ (p : Port) (input chk : Byte) (s : State), Accepted (.inputRead p input chk) p s →
    exec (.inputRead p input chk) s = .next (
      match inputOf input with
      | none => s.answering p .param
      | some i =>
        let r := s.bi.inputs.get i
        s.answering p .ok [input, BitVec.ofNat 8 r.requested.val, BitVec.ofNat 8 r.live.val,
          BitVec.ofNat 8 (r.issued.val + if r.requested ≠ r.issued ∨ r.awaiting = true then 128 else 0),
          statusCode r.status,
          match r.advance with
          | some a => BitVec.ofNat 8 a
          | none => 0xFF#8])

/-! ### Reference, timing and input events (chapters 1 and 2) -/

/-- A line sync edge closes a line period when an earlier edge began one, and the measured period is the
floored mean of the four most recent, at most 65535, or 0 before there are four; a frame marker of the
reference or of an input is kept with its time, the latest over an earlier one (sections 1.3, 2.5). The
time base is the model's: notes/assumptions/6.md. -/
def Obligations.TimingEventsAreKept : Prop :=
  ∀ (t : Nat) (s : State), s.resetLow = false →
    let now := s.rtg.frameStart + t
    let periods := match s.rtg.lastEdge with
      | some edge => (now - edge) :: s.rtg.linePeriods.take 3
      | none => s.rtg.linePeriods
    exec (.referenceLineSync t) s =
      .next { s with rtg := { s.rtg with lastEdge := some now, linePeriods := periods } }
    ∧ exec (.referenceFrameMarker t) s = .next { s with rtg := { s.rtg with refMarker := some now } }
    ∧ (∀ i : InputId, exec (.inputFrameMarker i t) s = .next { s with bi := { s.bi with
        inputs := s.bi.inputs.set i { s.bi.inputs.get i with marker := some now } } })
    ∧ (∀ a b c d, s.rtg.linePeriods = [a, b, c, d] →
        measuredPeriod s.rtg = min ((a + b + c + d) / 4) 65535)
    ∧ (s.rtg.linePeriods.length < 4 → measuredPeriod s.rtg = 0)

/-- A pending timing setup takes effect: within the raster in force only the enable changes, with the lock
state it gives; a new raster also clears the counts, the condition and the timed lines, starts the settling
of every external input and clamps every crop edge; REF is raised when the lock state changed (sections
1.5, 2.5, 3.1).
The row of this statement runs its own step alone: that is the model's choice, notes/assumptions/2.md; that it
makes no reference evaluation is its reading, notes/assumptions/17.md, and so is the dropping of the line
period in progress at a raster change, notes/assumptions/6.md; that it leaves the frame in progress with its
start, length and marker is its choice, notes/assumptions/23.md. -/
def Obligations.TimingSetupTakesEffect : Prop :=
  ∀ s : State, s.resetLow = false →
    (s.rtg.pendingSetup = none → exec .timingSetupApply s = .next s)
    ∧ ∀ ts, s.rtg.pendingSetup = some ts →
      let changed := decide (ts.raster ≠ s.rtg.raster)
      let lock := if ts.enable then
          (if changed = true ∨ s.rtg.lock = .free then LockState.seeking else s.rtg.lock)
        else .free
      let clears := changed || !ts.enable
      let clamp := fun k : KeyerSetup => if changed then clampCrop ts.raster k else k
      let copy := fun st : Setup => { st with keyers := st.keyers.map clamp }
      exec .timingSetupApply s = .next (({ s with
        rtg := { s.rtg with
          raster := ts.raster
          enable := ts.enable
          pendingSetup := none
          lock := lock
          cond := if changed then .absent else s.rtg.cond
          linePeriods := if changed then [] else s.rtg.linePeriods
          lastEdge := if changed then none else s.rtg.lastEdge
          miss := if clears then 0 else s.rtg.miss
          inWindow := if clears then 0 else s.rtg.inWindow
          outCount := if clears then 0 else s.rtg.outCount
          trimLimit := if clears then false else s.rtg.trimLimit }
        bi := { s.bi with inputs := s.bi.inputs.map fun i =>
          { i with settle := if changed = true ∧ isExternal i.live = true then 2 else i.settle } }
        mes := { s.mes with next := copy s.mes.next, live := copy s.mes.live }
        tc := { s.tc with sceneCut := s.tc.sceneCut.map fun c =>
          { c with keyers := c.keyers.map clamp } } } : State).onPorts fun _ ps =>
            raisedWhen (decide (lock ≠ s.rtg.lock)) .ref ps)

/-- The lock state machine at a switch point: the condition, the phase error, the lock state with its counts,
the trim step, the crash-lock's frame length and the REF notice, as the table of section 1.4 gives, under the
enable of a pending timing setup when there is one; a pending raster change takes effect with no evaluation
(sections 1.2 to 1.5). The time base is the model's reading, notes/assumptions/6.md. -/
def Obligations.LockStateMachineAtSwitchPoint : Prop :=
  ∀ (xready : Bool) (s : State), s.resetLow = false →
    let r := s.rtg
    let raster := match r.pendingSetup with
      | some ts => ts.raster
      | none => r.raster
    let on := match r.pendingSetup with
      | some ts => ts.enable
      | none => r.enable
    let f := frameSamples r.raster
    let lineOne : Int := ((r.frameStart + r.frameLen : Nat) : Int) - 6 * lineSamples r.raster
    let cond := match r.refMarker with
      | none => RefCond.absent
      | some _ =>
        if ((measuredPeriod r : Int) - lineSamples r.raster).natAbs ≤ 2 then .valid else .mismatch
    ∃ t, exec (.switchPoint xready) s = .next t ∧
      let v := t.rtg
      v.counter = r.counter + 1 ∧ v.raster = raster ∧ v.enable = on ∧ v.pendingSetup = none
      ∧ v.frameStart = r.frameStart + r.frameLen
      ∧ (∀ p, (v.lock ≠ r.lock → flagSet (t.ports.get p).flags .ref = true)
          ∧ (v.lock = r.lock → flagSet (t.ports.get p).flags .ref = flagSet (s.ports.get p).flags .ref))
      ∧ (raster ≠ r.raster →
          v.cond = .absent ∧ v.phaseErr = r.phaseErr ∧ v.trim = r.trim ∧ v.trimLimit = false
          ∧ v.miss = 0 ∧ v.inWindow = 0 ∧ v.outCount = 0 ∧ v.linePeriods = []
          ∧ v.lock = (if on then .seeking else .free) ∧ v.frameLen = frameSamples raster)
      ∧ (raster = r.raster → ∃ exact : Int,
        (∀ m, r.refMarker = some m → ∃ n : Int, exact = (m : Int) - lineOne + n * f
          ∧ -(f : Int) ≤ 2 * exact ∧ 2 * exact < f)
        ∧ let e := max (-32767) (min 32767 exact)
          v.cond = cond ∧ v.phaseErr = (if cond = .valid then e else r.phaseErr)
          ∧ (on = false → v.lock = .free ∧ v.miss = 0 ∧ v.inWindow = 0 ∧ v.outCount = 0
              ∧ v.trimLimit = false ∧ v.trim = r.trim ∧ v.frameLen = f)
          ∧ (on = true → cond ≠ .valid →
              v.miss = min 3 (r.miss + 1) ∧ v.inWindow = 0 ∧ v.outCount = 0 ∧ v.trimLimit = false
              ∧ v.trim = r.trim ∧ v.frameLen = f
              ∧ v.lock = (if 2 ≤ r.miss then .holdover
                  else if r.lock = .free then .seeking else r.lock))
          ∧ (on = true → cond = .valid → r.lock ≠ .locked →
              v.miss = 0
              ∧ v.frameLen = (if 64 < e.natAbs then ((f : Int) + exact).toNat else f)
              ∧ (8 < e.natAbs → v.lock = .seeking ∧ v.inWindow = 0)
              ∧ (e.natAbs ≤ 8 → r.inWindow < 3 → v.lock = .seeking ∧ v.inWindow = r.inWindow + 1)
              ∧ (e.natAbs ≤ 8 → 3 ≤ r.inWindow →
                  v.lock = .locked ∧ v.inWindow = 0 ∧ v.outCount = 0))
          ∧ (on = true → cond = .valid → r.lock = .locked →
              v.miss = 0 ∧ v.frameLen = f
              ∧ (e.natAbs ≤ 8 → v.lock = .locked ∧ v.outCount = 0)
              ∧ (8 < e.natAbs → r.outCount = 0 → v.lock = .locked ∧ v.outCount = 1)
              ∧ (8 < e.natAbs → 1 ≤ r.outCount →
                  v.lock = .seeking ∧ v.outCount = 0 ∧ v.inWindow = 0))
          ∧ (on = true → cond = .valid →
              v.trim = (if 1 < e ∧ -200 < r.trim then r.trim - 1
                else if e < -1 ∧ r.trim < 200 then r.trim + 1 else r.trim)
              ∧ (v.trimLimit = true ↔ (1 < e ∧ r.trim ≤ -200) ∨ (e < -1 ∧ 200 ≤ r.trim))))

/-! ### The switch pipeline of the inputs (chapter 2) -/

/-- At ISSUE with XREADY asserted every waiting request is issued, and one burst carries, in ascending input
number, a record for each issued external source that differs from last sent; otherwise nothing is issued
and no burst is sent (section 2.4).
The rows of this statement run their own step alone: that is the model's choice, notes/assumptions/2.md. -/
def Obligations.IssueSendsOneBurst : Prop :=
  ∀ s : State, s.resetLow = false →
    let asked := fun i => (s.bi.inputs.get i).requested
    let sends := fun i => decide (asked i ≠ (s.bi.inputs.get i).issued) && isExternal (asked i)
      && decide (s.xl.lastSent.get i ≠ some (asked i))
    let sent := fun i => if sends i then some (asked i) else s.xl.lastSent.get i
    exec (.issue false) s = .next { s with xl := { s.xl with burst := [] } }
    ∧ exec (.issue true) s = .next { s with
      bi := { s.bi with inputs := s.bi.inputs.map fun i =>
        { i with issued := i.requested, awaiting := i.awaiting || decide (i.requested ≠ i.issued) } }
      xl := {
        lastSent := buildInputs sent
        burst := (InputId.all.filter sends).map fun i => ⟨i, asked i⟩ } }

/-- At GO LIVE every awaiting issue becomes the live source: an external one begins to settle for two
switch points, an internal one is INTERNAL at once; after an ENGINE RESET every live source becomes BLACK
instead (sections 2.4, 2.8).
The rows of this statement run their own step alone: that is the model's choice, notes/assumptions/2.md. So is
that the row knows an ENGINE RESET by the controller's pending reset, which it leaves set,
notes/assumptions/24.md. -/
def Obligations.GoLiveMakesIssuedLive : Prop :=
  ∀ s : State, s.resetLow = false →
    let after : InputRec → InputRec := fun i =>
      if s.tc.resetPending then { i with live := 124, settle := 0 }
      else if i.awaiting = false then i
      else if isExternal i.issued then { i with live := i.issued, awaiting := false, settle := 2 }
      else { i with live := i.issued, awaiting := false, settle := 0, status := .internal }
    exec .goLive s = .next { s with bi := { s.bi with inputs := s.bi.inputs.map after } }

/-- Every switch point measures and judges each input after its issue has gone live and a crash-lock or a
raster change has restarted the settling, a crash-lock being made when the enable in force there is on, the
state is not LOCKED, the reference is VALID and the phase error lies beyond 64 either way: an external input
settles while its count runs, with its last judged status kept, and is then judged by its advance against the
thresholds; its advance and its fault are taken while it settles too; an internal one is INTERNAL and not
faulted. INPUT is raised to all ports when the status of an input that contributes changed from the status
judged before, to or from LATE, EARLY or ABSENT (sections 1.2 to 1.5, 2.4 to 2.6, 2.8).
The time base is the model's reading, notes/assumptions/6.md, and so is measuring against the frame that ends,
notes/assumptions/7.md. -/
def Obligations.SwitchPointJudgesInputs : Prop :=
  ∀ (xready : Bool) (s : State), s.resetLow = false →
    let lineOne : Int :=
      ((s.rtg.frameStart + s.rtg.frameLen : Nat) : Int) - 6 * lineSamples s.rtg.raster
    let f : Int := frameSamples s.rtg.raster
    let raster := match s.rtg.pendingSetup with
      | some ts => ts.raster
      | none => s.rtg.raster
    let on := match s.rtg.pendingSetup with
      | some ts => ts.enable
      | none => s.rtg.enable
    let phaseBeyond := match s.rtg.refMarker with
      | none => false
      | some m => decide (64 < |((m : Int) - lineOne + f / 2) % f - f / 2|)
    let matched := decide (|(measuredPeriod s.rtg : Int) - lineSamples s.rtg.raster| ≤ 2)
    let restarts := decide (raster ≠ s.rtg.raster)
      || (on && decide (s.rtg.lock ≠ .locked) && matched && phaseBeyond)
    let bad := fun st : InputStatus => decide (st = .late ∨ st = .early ∨ st = .absent)
    ∃ t, exec (.switchPoint xready) s = .next t
      ∧ (∀ i : InputId,
        let was := s.bi.inputs.get i
        let now := t.bi.inputs.get i
        let live := if s.tc.resetPending then 124 else if was.awaiting then was.issued else was.live
        let measured := match was.marker with
          | none => none
          | some m =>
            if m < s.rtg.prevStart then none
            else if lineOne ≤ m then some 0
            else some (min 15 ((lineOne - m).toNat / lineSamples s.rtg.raster))
        let count := if restarts then 2
          else if s.tc.resetPending then 0
          else if was.awaiting then 2 else was.settle
        let judged := match measured with
          | none => InputStatus.absent
          | some a => if a < s.bi.lMin then .late else if s.bi.lMax < a then .early else .aligned
        now.live = live
        ∧ (124 ≤ live.val → now.status = .internal ∧ now.lastJudged = .internal ∧ now.advance = none
            ∧ now.settle = 0 ∧ now.faulted = false)
        ∧ (live.val < 124 →
            now.advance = measured ∧ now.faulted = decide (judged ≠ .aligned)
            ∧ (count = 0 → now.status = judged ∧ now.lastJudged = judged ∧ now.settle = 0)
            ∧ (count ≠ 0 → now.status = .settling ∧ now.lastJudged = was.lastJudged
                ∧ now.settle = count - 1)))
      ∧ ∀ p : Port, (flagSet (t.ports.get p).flags .input = true ↔
          flagSet (s.ports.get p).flags .input = true
          ∨ ∃ i : InputId, (t.bi.inputs.get i).status ≠ .settling
            ∧ (t.bi.inputs.get i).status ≠ (s.bi.inputs.get i).lastJudged
            ∧ (bad (t.bi.inputs.get i).status = true ∨ bad (s.bi.inputs.get i).lastJudged = true)
            ∧ (onProgram t i = true ∨ onPreview t i = true))

/-! ### The switch point (chapters 3, 4, 7, 8 and 9) -/

/-- A switch point is its parts in their order: the clip count of the frame that ended is closed and the RTG
acts; the inputs go live, settle, are judged and are issued; every setup is copied to live, a set reload mark
reloads the wipe direction from the live reverse field and is cleared, and crop edges are clamped at a raster
change; the quiet count, a pending engine reset, the scene cut and the key cuts; the main action; and, unless
one was performed, the advance; then the INPUT notice and the tally; and last every due entry is released, in
queue order. The cue queue so loses exactly the due entries; the locks, the scenes, the protect count, the
alignment thresholds, the tags and the last granted port stay (sections 2.4, 2.5, 3.1, 4.3, 6.4, 7.7, 8.3, 9.3).
That a row of a part runs that part alone, as this statement uses them, is the model's choice,
notes/assumptions/2.md, and the order where no rule gives it is its reading, notes/assumptions/8.md. -/
def Obligations.SwitchPointClosesClipsAndReleasesCues : Prop :=
  ∀ (xready : Bool) (s : State), s.resetLow = false →
    let clamp := match s.rtg.pendingSetup with
      | some ts => if ts.raster ≠ s.rtg.raster then clampCrop ts.raster else id
      | none => id
    let due := s.cq.entries.filter fun e => e.target == s.rtg.counter + 1
    ∃ a b c d e t, exec (.switchPoint xready) s = .next t
      ∧ runRows [.goLive] (timingSwitch (closeClipFrame s)) = some a
      ∧ runRows [.issue xready] (judgeAll s.rtg (settleAll (settleDirective s.rtg) a)) = some b
      ∧ runRows [.quietLimitExpiry, .engineResetApply, .sceneCutApply, .keyCutApply .k1, .keyCutApply .k2,
          .keyCutApply .k3, .keyCutApply .k4]
        { b with
          mes := { b.mes with
            next := { s.mes.next with keyers := s.mes.next.keyers.map clamp }
            live := { s.mes.next with keyers := s.mes.next.keyers.map clamp } }
          wg := if s.wg.reload then
              ⟨if s.mes.next.wipe.reverse then .reversed else .normal, false⟩ else s.wg
          tc := { b.tc with sceneCut := b.tc.sceneCut.map fun x =>
            { x with keyers := x.keyers.map clamp } } } = some c
      ∧ runRows [.cutPerform, .autoStart, .takeover] c = some d
      ∧ (c.tc.main ≠ .none ∧ d.tc.main = .none → e = d)
      ∧ (c.tc.main = .none ∨ d.tc.main ≠ .none →
        (d.tc.mode = .idle → runRows [.manualStart] d = some e)
        ∧ (d.tc.mode = .auto → d.tc.inFlight = none → e = d)
        ∧ (d.tc.mode = .manual → d.lu.holder = none → e = d)
        ∧ (d.tc.mode = .auto → ∀ f, d.tc.inFlight = some f →
          (f.k + 1 < f.r → e = d.withTc { d.tc with
            pos := f.p0 + (4096 - f.p0) * (f.k + 1) / f.r, inFlight := some { f with k := f.k + 1 } })
          ∧ (f.r ≤ f.k + 1 → runRows [.completion] d = some e))
        ∧ (d.tc.mode = .manual → ∀ h, d.lu.holder = some h →
          let pl := (d.lu.levers.get h).pos
          (pl = 0 → e = { d with
            tc := { d.tc with mode := .idle, pos := 0, inFlight := none, manualDeferrals := 0 }
            lu := ⟨none, 0, noPickups d.lu.levers⟩
            ports := .build fun q => raisedWhen (losesPickup d q) .leverLost (d.ports.get q) })
          ∧ (1 ≤ pl → pl ≤ 4095 → e = d.withTc { d.tc with pos := pl })
          ∧ (4096 ≤ pl → runRows [.completion] d = some e)))
      ∧ runRows (due.map fun _ => .cueRelease) (publishTally (inputNotice s.bi.inputs e)) = some t
      ∧ t.rtg.counter = s.rtg.counter + 1
      ∧ t.cmp.working = 0 ∧ t.cmp.clipCount = s.cmp.working
      ∧ t.cmp.sticky = (s.cmp.sticky || decide (0 < s.cmp.working))
      ∧ (∀ p, (0 < s.cmp.working → flagSet (t.ports.get p).flags .clip = true)
          ∧ (s.cmp.working = 0 →
            flagSet (t.ports.get p).flags .clip = flagSet (s.ports.get p).flags .clip))
      ∧ t.cq.entries = s.cq.entries.filter (fun e => e.target != s.rtg.counter + 1)
      ∧ t.cq.nextTag = s.cq.nextTag ∧ t.mes.locks = s.mes.locks ∧ t.ss = s.ss
      ∧ t.bi.lMin = s.bi.lMin ∧ t.bi.lMax = s.bi.lMax ∧ t.lastGranted = s.lastGranted
      ∧ t.pending = s.pending

/-- The table published at a switch point is derived from the live state in force for the frame it begins: a
source is on program or on preview when an input that contributes there carries it live, with the layers of
all such inputs, and shows a fault when such an input is faulted and not settling. When an entry changed, the
generation rises by 1, TALLY is raised to all ports, and every change list takes the changed sources in
ascending order, each to the end from wherever it stood, the oldest leaving with the overrun flag set when
more than 32 stand there; otherwise the tally unit and the TALLY flags stay (sections 8.1 to 8.3). -/
def Obligations.SwitchPointPublishesLiveTally : Prop :=
  ∀ (xready : Bool) (s : State), s.resetLow = false →
    ∃ t, exec (.switchPoint xready) s = .next t ∧
      let moving := match t.tc.inFlight with
        | some f => f.selection
        | none => ⟨false, .const false⟩
      let ending := if t.tc.mode = .idle then t.mes.live.selection else moving
      let linear := fun k => decide ((t.mes.live.keyers.get k).type = .linear)
      let programKeyer := fun k =>
        t.tc.onAir.get k || (moving.keyers.get k && decide (0 < t.tc.pos))
      let previewKeyer := fun k => ending.keyers.get k != t.tc.onAir.get k
      let program : InputId → Bool := fun i => match i with
        | .fill k => programKeyer k
        | .key k => programKeyer k && linear k
        | .bga => decide (t.tc.role = .bga) || (moving.bkgd && decide (0 < t.tc.pos))
        | .bgb => decide (t.tc.role = .bgb) || (moving.bkgd && decide (0 < t.tc.pos))
      let preview : InputId → Bool := fun i => match i with
        | .fill k => previewKeyer k
        | .key k => previewKeyer k && linear k
        | .bga => decide (t.tc.role = .bga) != ending.bkgd
        | .bgb => decide (t.tc.role = .bgb) != ending.bkgd
      let carries := fun (src : Source) (i : InputId) => decide ((t.bi.inputs.get i).live = src)
      let added := fun (list : ChangeList) (src : Source) =>
        let moved := list.sources.filter (fun x => decide (x ≠ src)) ++ [src]
        if 32 < moved.length then (⟨moved.drop 1, true⟩ : ChangeList) else ⟨moved, list.overrun⟩
      (∀ src : Source,
        t.tu.table[src].onProgram = InputId.all.any (fun i => carries src i && program i)
        ∧ t.tu.table[src].onPreview = InputId.all.any (fun i => carries src i && preview i)
        ∧ t.tu.table[src].layers.bkgd
          = ((carries src .bga && program .bga) || (carries src .bgb && program .bgb))
        ∧ (∀ k, t.tu.table[src].layers.keyers.get k
          = ((carries src (.fill k) && program (.fill k)) || (carries src (.key k) && program (.key k))))
        ∧ t.tu.table[src].fault = InputId.all.any (fun i => carries src i && (program i || preview i)
            && (t.bi.inputs.get i).faulted && decide ((t.bi.inputs.get i).status ≠ .settling)))
      ∧ (t.tu.table = s.tu.table → t.tu = s.tu
          ∧ ∀ p, flagSet (t.ports.get p).flags .tally = flagSet (s.ports.get p).flags .tally)
      ∧ (t.tu.table ≠ s.tu.table →
          t.tu.generation = s.tu.generation + 1
          ∧ (∀ p, flagSet (t.ports.get p).flags .tally = true)
          ∧ ∀ p, t.tu.changes.get p =
            ((List.finRange 128).filter fun src => decide (t.tu.table[src] ≠ s.tu.table[src])).foldl
              added (s.tu.changes.get p))

/-- Every switch point copies the next copy of every setup into the live copy, with the crop edges clamped
at a raster change; only the keyers of a scene cut applied there stand over it, and a scene cut that is
deferred leaves none. A set reload mark reloads the wipe direction from the live reverse field and is cleared,
unless a released cue sets it again (sections 3.1, 4.3, 6.4). -/
def Obligations.SwitchPointCopiesNextToLive : Prop :=
  ∀ (xready : Bool) (s : State), s.resetLow = false →
    ∃ t, exec (.switchPoint xready) s = .next t
      ∧ let clamp := match s.rtg.pendingSetup with
          | some ts => if ts.raster ≠ s.rtg.raster then clampCrop ts.raster else id
          | none => id
        let inFlight := fun i => decide ((s.bi.inputs.get i).requested ≠ (s.bi.inputs.get i).issued)
          || (s.tc.resetPending && (s.bi.inputs.get i).awaiting)
        let waits := fun c : SceneCut => decide (c.deferrals < 4)
          && ((c.background && (inFlight .bga || inFlight .bgb))
            || Keyer.all.any fun k => inFlight (.fill k)
              || (decide ((c.keyers.get k).type = .linear) && inFlight (.key k)))
        t.mes.live = { s.mes.next with keyers := match s.tc.sceneCut with
          | some c => if waits c then s.mes.next.keyers.map clamp else c.keyers.map clamp
          | none => s.mes.next.keyers.map clamp }
        ∧ (s.tc.inFlight = none → s.lu.holder = none →
          t.wg.direction = (if s.wg.reload then
            (if s.mes.next.wipe.reverse then .reversed else .normal) else s.wg.direction))
        ∧ ((∀ e ∈ s.cq.entries, e.target ≠ s.rtg.counter + 1) → t.wg.reload = false)

/-- With nothing pending, the switch point advances a running transition: an auto transition by one of its R
frames, completing at the last, and a manual one to its holder's position, completing at 4096 and
returning home at 0 (section 4.3). -/
def Obligations.SwitchPointAdvancesTransition : Prop :=
  ∀ (xready : Bool) (s : State) (f : InFlight), s.resetLow = false → s.tc.resetPending = false →
    s.tc.main = .none → s.tc.sceneCut = none → s.tc.inFlight = some f →
    let swapped := if f.selection.bkgd then s.tc.role.swap else s.tc.role
    ∃ t, exec (.switchPoint xready) s = .next t
      ∧ (s.tc.mode = .auto → f.k + 1 < f.r →
          t.tc.mode = .auto ∧ t.tc.inFlight = some { f with k := f.k + 1 }
          ∧ t.tc.pos = f.p0 + (4096 - f.p0) * (f.k + 1) / f.r ∧ t.tc.role = s.tc.role)
      ∧ (s.tc.mode = .auto → f.k + 1 = f.r →
          t.tc.mode = .idle ∧ t.tc.inFlight = none ∧ t.tc.pos = 0 ∧ t.tc.role = swapped
          ∧ (∀ k, f.selection.keyers.get k = true → t.tc.onAir.get k = !s.tc.onAir.get k)
          ∧ ∀ p, flagSet (t.ports.get p).flags .done = true)
      ∧ ∀ h, s.tc.mode = .manual → s.lu.holder = some h →
          s.lu.quiet + 1 < (s.ports.get h).quietLimit →
          ((s.lu.levers.get h).pos = 0 → t.tc.mode = .idle ∧ t.tc.inFlight = none ∧ t.tc.pos = 0
            ∧ t.tc.role = s.tc.role ∧ t.lu.holder = none)
          ∧ (1 ≤ (s.lu.levers.get h).pos → (s.lu.levers.get h).pos ≤ 4095 →
            t.tc.mode = .manual ∧ t.tc.inFlight = some f ∧ t.tc.pos = (s.lu.levers.get h).pos
            ∧ t.lu.holder = some h ∧ t.lu.quiet = s.lu.quiet + 1)
          ∧ ((s.lu.levers.get h).pos = 4096 → t.tc.mode = .idle ∧ t.tc.inFlight = none
            ∧ t.tc.pos = 0 ∧ t.tc.role = swapped ∧ t.lu.holder = none
            ∧ (t.lu.levers.get h).home = (match (s.lu.levers.get h).home with
                | .low => HomeEnd.high
                | .high => .low))

/-! ### The stages of the frame take (chapters 4 and 5) -/

/-- A pending scene cut is applied, to both copies of the keyers and to the on-air flags, when none of its
inputs is in flight or its count stands at 4; otherwise its count rises by 1. A pending key cut waits
uncounted behind a scene cut and while its keyer is in flight, and otherwise goes by the same test on its
keyer's inputs (sections 4.3, 4.5).
The rows of this statement run their own step alone: that is the model's choice, notes/assumptions/2.md. -/
def Obligations.SceneCutAndKeyCutsApplied : Prop :=
  (∀ s : State, s.resetLow = false →
    (s.tc.sceneCut = none → exec .sceneCutApply s = .next s)
    ∧ ∀ c, s.tc.sceneCut = some c →
      let inputs := (if c.background then [InputId.bga, .bgb] else [])
        ++ Keyer.all.flatMap fun k => match (c.keyers.get k).type with
          | .luma => [.fill k]
          | .linear => [.fill k, .key k]
      let waits := inputs.any (fun i => recInFlight (s.input i)) && decide (c.deferrals < 4)
      exec .sceneCutApply s = .next (
        if waits then s.withTc { s.tc with sceneCut := some { c with deferrals := c.deferrals + 1 } }
        else { s with
          mes := { s.mes with
            next := { s.mes.next with keyers := c.keyers }
            live := { s.mes.live with keyers := c.keyers } }
          tc := { s.tc with onAir := c.onAir, sceneCut := none } }))
  ∧ (∀ (k : Keyer) (s : State), s.resetLow = false →
    (s.tc.sceneCut ≠ none ∨ s.tc.keyCuts.get k = none ∨ (inFlightSelection s).keyers.get k = true →
      exec (.keyCutApply k) s = .next s)
    ∧ ∀ c, s.tc.sceneCut = none → s.tc.keyCuts.get k = some c →
      (inFlightSelection s).keyers.get k = false →
      let waits := (recInFlight (s.input (.fill k))
        || (isLinear s k && recInFlight (s.input (.key k)))) && decide (c.deferrals < 4)
      exec (.keyCutApply k) s = .next (
        if waits then
          s.withTc { s.tc with keyCuts := s.tc.keyCuts.set k (some { c with deferrals := c.deferrals + 1 }) }
        else
          s.withTc { s.tc with
            keyCuts := s.tc.keyCuts.set k none, onAir := s.tc.onAir.set k c.target }))

/-- The take applies a pending engine reset: IDLE at 0 with no record, role BGA, every keyer off air, with
no completion; WAITING ports of a manual transition lose their pickup (sections 4.6, 5.3). The quiet count
of a holder rises by 1 at a switch point, and at the quiet limit the hold is released with LEVER_LOST
(section 5.4).
The rows of this statement run their own step alone: that is the model's choice, notes/assumptions/2.md. -/
def Obligations.EngineResetAndQuietLimitAtTake : Prop :=
  ∀ s : State, s.resetLow = false →
    (s.tc.resetPending = false → exec .engineResetApply s = .next s)
    ∧ (s.tc.resetPending = true →
      exec .engineResetApply s = .next (({ s with
        tc := { s.tc with
          mode := .idle, pos := 0, inFlight := none, role := .bga, onAir := .const false
          resetPending := false }
        lu := { s.lu with levers := .build fun q =>
          (s.lu.levers.get q).unlessWaiting (losesPickup s q) } } : State).onPorts fun q ps =>
            raisedWhen (losesPickup s q) .leverLost ps))
    ∧ (s.lu.holder = none → exec .quietLimitExpiry s = .next s)
    ∧ ∀ h, s.lu.holder = some h →
      (s.lu.quiet + 1 < (s.ports.get h).quietLimit →
        exec .quietLimitExpiry s = .next (s.withLu { s.lu with quiet := s.lu.quiet + 1 }))
      ∧ ((s.ports.get h).quietLimit ≤ s.lu.quiet + 1 →
        exec .quietLimitExpiry s = .next (({ s with
          lu := { s.lu with holder := none, quiet := 0 }
          tc := { s.tc with manualDeferrals := 0 } } : State).onPort h fun ps =>
            { ps with flags := setFlag ps.flags .leverLost }))

/-- A pending CUT from IDLE waits for its inputs at most four takes, and then completes the live selection
with no type; from AUTO or MANUAL it completes the running transition at once. A pending AUTO from IDLE
waits in the same way; with rate 0 it is performed as a CUT from IDLE, and otherwise the transition starts
at position 0 with the live selection, type and rate. The inputs are BGA and BGB when the live selection holds
BKGD, and for each of its keyers the fill, with the key when the live type is LINEAR (section 4.3).
The rows of this statement run their own step alone: that is the model's choice, notes/assumptions/2.md; that
releasing the hold in IDLE sets the count of a waiting lever start to 0 is its reading,
notes/assumptions/16.md. -/
def Obligations.CutIsPerformedAndAutoStarts : Prop :=
  let waits := fun (s : State) (count : Nat) =>
    let inputs := (if s.mes.live.selection.bkgd then [InputId.bga, .bgb] else [])
      ++ Keyer.all.flatMap fun k =>
        if s.mes.live.selection.keyers.get k then
          (match (s.mes.live.keyers.get k).type with
            | .luma => [.fill k]
            | .linear => [.fill k, .key k])
        else []
    let moving := fun i : InputId =>
      decide ((s.bi.inputs.get i).requested ≠ (s.bi.inputs.get i).issued) || (s.bi.inputs.get i).awaiting
    inputs.any moving && decide (count < 4)
  (∀ s : State, s.resetLow = false → s.tc.sceneCut = none → s.tc.main = .cut →
    (s.tc.mode = .idle →
      exec .cutPerform s = .next (
        if waits s s.tc.mainDeferrals then
          s.withTc { s.tc with mainDeferrals := s.tc.mainDeferrals + 1 }
        else s.mainPerformed.completed s.mes.live.selection none false))
    ∧ ∀ f, s.tc.mode ≠ .idle → s.tc.inFlight = some f →
      exec .cutPerform s = .next (s.mainPerformed.completed f.selection (some f.type) false))
  ∧ (∀ s : State, s.resetLow = false → s.tc.sceneCut = none → s.tc.main = .auto → s.tc.mode = .idle →
    exec .autoStart s = .next (
      if waits s s.tc.mainDeferrals then
        s.withTc { s.tc with mainDeferrals := s.tc.mainDeferrals + 1 }
      else if s.mes.live.rate = 0 then s.mainPerformed.completed s.mes.live.selection none false
      else s.mainPerformed.withTc { s.mainPerformed.tc with
        mode := .auto
        pos := 0
        inFlight := some ⟨s.mes.live.selection, s.mes.live.type, 0, s.mes.live.rate, 0, .auto⟩ }))

/-- A pending AUTO in MANUAL takes the transition over without waiting: from the position it stands at, over
the same share of the live rate as is left, rounded up; with rate 0 it completes. The hold is released and
WAITING ports lose their pickup (sections 4.3, 5.3, 5.5).
The rows of this statement run their own step alone: that is the model's choice, notes/assumptions/2.md. -/
def Obligations.TakeoverKeepsPositionAndSpeed : Prop :=
  ∀ (s : State) (f : InFlight), s.resetLow = false → s.tc.sceneCut = none → s.tc.main = .auto →
    s.tc.mode = .manual → s.tc.inFlight = some f → s.tc.pos ≤ 4095 →
    ∃ frames, frames = (((4096 - s.tc.pos) * s.mes.live.rate + 4095) / 4096)
      ∧ (1 ≤ s.mes.live.rate → 1 ≤ frames ∧ frames ≤ s.mes.live.rate)
      ∧ exec .takeover s = .next (
        if s.mes.live.rate = 0 then s.mainPerformed.completed f.selection (some f.type) false
        else
          ({ s.mainPerformed with
            tc := { s.mainPerformed.tc with
              mode := .auto
              inFlight := some { f with p0 := s.tc.pos, r := frames, k := 0, driver := .auto } }
            lu := { s.mainPerformed.lu with levers := .build fun q =>
              (s.lu.levers.get q).unlessWaiting (losesPickup s q) } } : State).onPorts fun q ps =>
                raisedWhen (losesPickup s q) .leverLost ps)

/-- In IDLE with nothing else pending, a holder's position above 0 starts a manual transition once its inputs
allow, after at most four deferrals: BGA and BGB when the live selection holds BKGD, and for each of its keyers
the fill, with the key when the live type is LINEAR; at 4096 it completes at once under that lever; at 0 the count becomes 0
and nothing starts; behind a main action or a scene cut nothing happens. A transition at its last frame
completes: an auto transition with one frame left, and a manual one whose holder stands at 4096, under that
lever, which flips its home end (sections 4.3, 5.5).
The rows of this statement run their own step alone: that is the model's choice, notes/assumptions/2.md. -/
def Obligations.ManualStartAndCompletion : Prop :=
  let waits := fun (s : State) (count : Nat) =>
    let inputs := (if s.mes.live.selection.bkgd then [InputId.bga, .bgb] else [])
      ++ Keyer.all.flatMap fun k =>
        if s.mes.live.selection.keyers.get k then
          (match (s.mes.live.keyers.get k).type with
            | .luma => [.fill k]
            | .linear => [.fill k, .key k])
        else []
    let moving := fun i : InputId =>
      decide ((s.bi.inputs.get i).requested ≠ (s.bi.inputs.get i).issued) || (s.bi.inputs.get i).awaiting
    inputs.any moving && decide (count < 4)
  (∀ (s : State) (h : Port), s.resetLow = false → s.tc.mode = .idle → s.lu.holder = some h →
    let pl := (s.lu.levers.get h).pos
    (pl = 0 → exec .manualStart s = .next (s.withTc { s.tc with manualDeferrals := 0 }))
    ∧ (pl ≠ 0 → s.tc.main ≠ .none ∨ s.tc.sceneCut ≠ none → exec .manualStart s = .next s)
    ∧ (pl ≠ 0 → s.tc.main = .none → s.tc.sceneCut = none →
      waits s s.tc.manualDeferrals = true →
      exec .manualStart s = .next (s.withTc { s.tc with manualDeferrals := s.tc.manualDeferrals + 1 }))
    ∧ (pl ≠ 0 → s.tc.main = .none → s.tc.sceneCut = none →
      waits s s.tc.manualDeferrals = false →
      let started := s.withTc { s.tc with
        mode := .manual
        inFlight := some ⟨s.mes.live.selection, s.mes.live.type, 0, 0, 0, .lever⟩
        manualDeferrals := 0 }
      (pl < 4096 → exec .manualStart s = .next (started.withTc { started.tc with pos := pl }))
      ∧ (pl = 4096 → exec .manualStart s =
          .next (started.completed s.mes.live.selection (some s.mes.live.type) true))))
  ∧ (∀ (s : State) (f : InFlight), s.resetLow = false → s.tc.inFlight = some f →
    (s.tc.mode = .auto → f.k + 1 = f.r →
      exec .completion s = .next (s.completed f.selection (some f.type) false))
    ∧ ∀ h, s.tc.mode = .manual → s.lu.holder = some h → (s.lu.levers.get h).pos = 4096 →
      exec .completion s = .next (s.completed f.selection (some f.type) true))

/-! ### The picture (chapters 6 and 7) -/

/-- An active sample that its frame outputs goes out on both outputs: the program composite and the preview
composite limited to the live ranges, a component in its range unchanged and one outside it at the nearest
bound, with chroma at even positions only. The working count rises by 1 exactly when the limiter changed the
program sample, up to its saturation; nothing else changes. The program composite lays the four fills over the
program background in the live key order, each with its key coefficient; the preview composite lays them over
the background of the end state, each with its shaped key when it is on air there. With the controller IDLE
and no keyer on air the program composite is the PGM-role input's sample. The stream of an input is what
arrives on it when its live source is external, and BLACK, the eight BARS or a live matte when it is internal; a
faulted background input gives BLACK in its place. Every frame that is not shortened outputs its whole picture;
a shortened one outputs the samples it reaches, and one that it does not reach, like any before the first switch
point, changes nothing (sections 1.4, 2.2, 7.1, 7.4 to 7.7).
Where the picture lies in its frame is free, notes/assumptions/25.md.
That the outputs hold their latest sample, and no sample before the first switch point, is the model's
choice: notes/assumptions/12.md. -/
def Obligations.ActiveSampleIsLimitedAndCounted : Prop :=
  ∀ (x y : Nat) (inputs : PerInput Pixel) (s : State), s.resetLow = false →
    x < activeWidth s.rtg.raster → y < activeHeight s.rtg.raster →
    let whole := frameSamples s.rtg.raster ≤ s.rtg.frameLen
    let position := pictureLead s.rtg.raster + y * lineSamples s.rtg.raster + x
    let l := s.mes.live.limiter
    let program := programComposite s x y inputs
    let preview := previewComposite s x y inputs
    let limited := fun t : Triple =>
      (⟨max l.yLo (min t.y l.yHi), max l.cLo (min t.cb l.cHi), max l.cLo (min t.cr l.cHi)⟩ : Triple)
    let sent := fun t : Triple => (⟨t.y, if x % 2 = 0 then some (t.cb, t.cr) else none⟩ : OutSample)
    let changed := (limited program).y ≠ program.y
      ∨ (x % 2 = 0 ∧ ((limited program).cb ≠ program.cb ∨ (limited program).cr ≠ program.cr))
    let laid := fun (bg : Triple) (coefficient : Keyer → Nat) =>
      s.mes.live.order.toList.foldl (fun out k =>
        let fill := inputSample s x inputs (.fill k)
        (⟨mixCode out.y fill.y (coefficient k), mixCode out.cb fill.cb (coefficient k),
          mixCode out.cr fill.cr (coefficient k)⟩ : Triple)) bg
    let ending := if s.tc.mode = .idle then s.mes.live.selection else inFlightSelection s
    let black : Triple := ⟨64, 512, 512⟩
    let bars : List Triple := [⟨721, 512, 512⟩, ⟨646, 176, 567⟩, ⟨525, 625, 176⟩, ⟨450, 289, 231⟩,
      ⟨335, 735, 793⟩, ⟨260, 399, 848⟩, ⟨139, 848, 457⟩, ⟨64, 512, 512⟩]
    let codes := fun p : Pixel => (⟨p.y.toNat, p.cb.toNat, p.cr.toNat⟩ : Triple)
    let stream := fun i : InputId =>
      let live := (s.bi.inputs.get i).live
      if (i = .bga ∨ i = .bgb) ∧ (s.bi.inputs.get i).faulted = true then black
      else if live.val < 124 then codes (inputs.get i)
      else if live.val = 124 then black
      else if live.val = 125 then bars.getD (x * 8 / activeWidth s.rtg.raster) black
      else if live.val = 126 then codes s.mes.live.matte1
      else codes s.mes.live.matte2
    (0 < s.rtg.frameStart → whole ∨ position < s.rtg.frameLen →
      exec (.activeSample x y inputs) s = .next { s with cmp := { s.cmp with
        working := if changed then min (s.cmp.working + 1) 16777215 else s.cmp.working
        program := some (sent (limited program))
        preview := some (sent (limited preview)) } })
    ∧ (s.rtg.frameStart = 0 ∨ (¬whole ∧ s.rtg.frameLen ≤ position) →
      exec (.activeSample x y inputs) s = .next s)
    ∧ position < frameSamples s.rtg.raster
    ∧ (LimiterInv l → (sent (limited program)).Within l ∧ (sent (limited preview)).Within l
        ∧ ∀ t : Triple, (t.y < l.yLo → (limited t).y = l.yLo) ∧ (l.yHi < t.y → (limited t).y = l.yHi)
          ∧ (l.yLo ≤ t.y → t.y ≤ l.yHi → (limited t).y = t.y)
          ∧ (l.cLo ≤ t.cb → t.cb ≤ l.cHi → (limited t).cb = t.cb)
          ∧ (l.cLo ≤ t.cr → t.cr ≤ l.cHi → (limited t).cr = t.cr))
    ∧ program = laid (programBackground s x y inputs) (fun k =>
        keyCoefficient s k (keySignal s x y inputs k) (mixFactor s x y))
    ∧ preview = laid
        (inputSample s x inputs (if ending.bkgd then pstInput s.tc.role else pgmInput s.tc.role))
        (fun k => if ending.keyers.get k != s.tc.onAir.get k then keySignal s x y inputs k else 0)
    ∧ (s.tc.inFlight = none → (∀ k, s.tc.onAir.get k = false) →
        program = inputSample s x inputs (pgmInput s.tc.role))
    ∧ ∀ i : InputId, inputSample s x inputs i = stream i

/-- No command, link event or arriving timing event between two switch points changes the state the frame is
rendered from, the published tally table, or any sample of either output (sections 7.1, 8.3). That the outputs
hold their latest sample in between is the model's choice, notes/assumptions/12.md. -/
def Obligations.CommandsLeaveThePictureAlone : Prop :=
  ∀ (c : Instr) (s t : State), betweenSwitchPoints c = true → exec c s = .next t →
    t.picture = s.picture ∧ t.tu.table = s.tu.table
    ∧ (s.cmp.program = t.cmp.program ∧ s.cmp.preview = t.cmp.preview)
    ∧ ∀ (x y : Nat) (inputs : PerInput Pixel), outputsAt t x y inputs = outputsAt s x y inputs

/-- The background mix lies between its two inputs, is the first at factor 0 and the second at 4096, and is
taken exactly when BKGD is in flight (R113). -/
def Obligations.BackgroundMixLiesBetween : Prop :=
  (∀ (s : State) (x y : Nat) (inputs : PerInput Pixel),
    let a := inputSample s x inputs (pgmInput s.tc.role)
    let b := inputSample s x inputs (pstInput s.tc.role)
    let m := mixFactor s x y
    let mixed := fun u v : Nat => ((u : Int) + (((v : Int) - u) * m + 2048) / 4096).toNat
    programBackground s x y inputs =
      if (inFlightSelection s).bkgd then ⟨mixed a.y b.y, mixed a.cb b.cb, mixed a.cr b.cr⟩ else a)
  ∧ ∀ a b m : Nat, m ≤ 4096 →
    min a b ≤ mixCode a b m ∧ mixCode a b m ≤ max a b
    ∧ ((mixCode a b m : Nat) : Int) = (a : Int) + (((b : Int) - a) * m + 2048) / 4096
    ∧ mixCode a b 0 = a ∧ mixCode a b 4096 = b

/-- Every coefficient of the composition lies in 0..4096: the mix factor, the shaped key and the key
coefficient, which never exceeds the shaped key. The shaped key is the Y of the fill, or of the key input of a
LINEAR keyer, above clip, times the gain, clamped, inverted, cropped and scaled by the opacity, and 0 when an
input of the keyer is faulted; the key coefficient follows the transition for a keyer in flight and is the
shaped key, or 0, for another (sections 7.2 to 7.4). -/
def Obligations.CoefficientsStayInRange : Prop :=
  ∀ (s : State) (x y : Nat) (inputs : PerInput Pixel) (k : Keyer), s.tc.pos ≤ 4096 →
    (s.mes.live.keyers.get k).opacity ≤ 4096 →
    let keyer := s.mes.live.keyers.get k
    let linear := keyer.type = .linear
    let source := (inputSample s x inputs (if linear then .key k else .fill k)).y
    let faulted := (s.bi.inputs.get (.fill k)).faulted = true
      ∨ (linear ∧ (s.bi.inputs.get (.key k)).faulted = true)
    let shaped : Int := max 0 (min 4096 (((source : Int) - keyer.clip) * keyer.gain / 64))
    let inverted := if keyer.invert then 4096 - shaped else shaped
    let inside := keyer.left ≤ x ∧ x < keyer.right ∧ keyer.top ≤ y ∧ y < keyer.bottom
    let cropped := if keyer.crop = true ∧ ¬inside then 0 else inverted
    let s2 := keySignal s x y inputs k
    let m := mixFactor s x y
    let moving := (inFlightSelection s).keyers.get k
    mixFactor s x y ≤ 4096 ∧ keySignal s x y inputs k ≤ 4096
    ∧ keyCoefficient s k (keySignal s x y inputs k) (mixFactor s x y) ≤ keySignal s x y inputs k
    ∧ (faulted → s2 = 0)
    ∧ (¬faulted → (s2 : Int) = cropped * keyer.opacity / 4096)
    ∧ keyCoefficient s k s2 m =
      (if moving = true ∧ s.tc.onAir.get k = false then s2 * m / 4096
        else if moving = true then s2 * (4096 - m) / 4096
        else if s.tc.onAir.get k = true then s2 else 0)
    ∧ m = (match s.tc.inFlight with
        | none => 0
        | some f => if f.type = .mix then s.tc.pos
            else wipeCoefficient s.rtg.raster s.mes.live.wipe s.wg.direction s.tc.pos x y)

/-- The wipe coefficient lies in 0..4096, is 0 everywhere at position 0 and 4096 everywhere at 4096, and never
falls as the position rises. It is the threshold's coefficient at the pattern value: the sample's normalised and
repeated position, its distances from the centre, the shape's value of them capped at 4095, and 4095 less that
when the direction is REVERSED (sections 6.2, 6.3). -/
def Obligations.WipeCoefficientIsPureAtBothEnds : Prop :=
  ∀ (r : Raster) (w : WipeSetup) (d : Direction) (x y : Nat), WipeInv w →
    (∀ pos, wipeCoefficient r w d pos x y ≤ 4096)
    ∧ wipeCoefficient r w d 0 x y = 0
    ∧ wipeCoefficient r w d 4096 x y = 4096
    ∧ (∀ pos pos', pos ≤ pos' → wipeCoefficient r w d pos x y ≤ wipeCoefficient r w d pos' x y)
    ∧ ∀ pos : Nat,
      let u : Int := x * 4096 / activeWidth r * w.rh % 4096
      let v : Int := y * 4096 / activeHeight r * w.rv % 4096
      let dx := |u - w.cx|
      let dy := |v - w.cy|
      let shape : Int := match w.pattern with
        | .hbar => u
        | .vbar => v
        | .split => min (2 * dx) 4095
        | .box => min (2 * max dx dy) 4095
        | .diamond => min (dx + dy) 4095
      let value := if d = .reversed then 4095 - shape else shape
      let t : Int := pos * (4096 + w.softness) / 4096
      (wipeCoefficient r w d pos x y : Int) =
        if w.softness = 0 then (if value < t then 4096 else 0)
        else max 0 (min 4096 ((t - value) * 4096 / w.softness))

/-- A lever position is the floor of d × 4096 / 1023, with d the distance of the value from the home end, 0 or
1023; it is 0 at the home end and 4096 at the other end only. An auto position is P0 and the share k / R of the
way left, floored; it stays below 4096 before its last frame and never falls (sections 4.3, 5.1). -/
def Obligations.PositionsReachTheirEndsExactly : Prop :=
  (∀ (h : HomeEnd) (v : Nat), v ≤ 1023 →
    (leverPosition h v : Int) = |(v : Int) - (if h = .low then 0 else 1023)| * 4096 / 1023
    ∧ leverPosition h v ≤ 4096
    ∧ (leverPosition h v = 0 ↔ v = homeValue h)
    ∧ (leverPosition h v = 4096 ↔ v = homeValue h.flip))
  ∧ ∀ p0 r k : Nat, p0 ≤ 4095 → k < r →
    (autoPosition p0 r k : Int) = p0 + (4096 - p0) * k / r
    ∧ p0 ≤ autoPosition p0 r k ∧ autoPosition p0 r k < 4096
    ∧ autoPosition p0 r k ≤ autoPosition p0 r (k + 1) ∧ autoPosition p0 r r = 4096

/-! ### What every step keeps -/

/-- `State.reset` meets every invariant (the reset tables of chapters 1 to 11). -/
def Obligations.ResetMeetsEveryInvariant : Prop := Inv State.reset

/-- Every step keeps the ranges of the timing generator, the bus inputs, the crosspoint link and the clip
counts (state tables of chapters 1, 2 and 7). -/
def Obligations.StepKeepsTimingAndInputs : Prop :=
  ∀ s t : State, Inv s → step s = .next t → TimingInv t.rtg ∧ InputsInv t

/-- Every step keeps both copies of the setups, a pending scene cut and the scene slots in their ranges
(section 3.1, chapters 6 and 10). -/
def Obligations.StepKeepsSetupsInRange : Prop :=
  ∀ s t : State, Inv s → step s = .next t → SetupInv t

/-- Every step keeps the transition controller and the lever unit consistent: a record exactly while a
transition runs, P on its course and 0 in IDLE, no hold in AUTO, WAITING only in a manual transition with
no holder, positions that are those of the values (chapters 4 and 5). That the count of a lever start is 0
whenever nobody holds the lever rests, after a CUT or AUTO that released the hold, on the model's reading in
notes/assumptions/16.md. -/
def Obligations.StepKeepsTransitionAndLever : Prop :=
  ∀ s t : State, Inv s → step s = .next t → TransitionInv t

/-- Every step keeps the cue queue in order with distinct tags and every target 1 to 65535 frames ahead, and
the tally entries and change lists well formed (chapters 8 and 9). -/
def Obligations.StepKeepsCuesAndTally : Prop :=
  ∀ s t : State, Inv s → step s = .next t → CueInv t.rtg.counter t.cq ∧ TallyInv t.tu

/-- Every step keeps each port's flags, mask, limit, phase and response consistent (chapter 11). -/
def Obligations.StepKeepsPorts : Prop :=
  ∀ s t : State, Inv s → step s = .next t → ∀ p, PortInv t.resetLow (t.ports.get p)
end

