-- ==== Sys2Proof/Laws/Composition.lean ====
section
/-!
SUPPORT. Laws/Composition.lean: which active samples a frame outputs, and what the row of one can do (R126).
-/

namespace Sys2Proof.Machine

/-- The lead leaves the whole active picture inside a regular frame (R109). -/
theorem pictureLead_le (r : Raster) :
    pictureLead r + ((activeHeight r - 1) * lineSamples r + activeWidth r) ≤ frameSamples r := by
  have fits : ∀ r : Raster, (activeHeight r - 1) * lineSamples r + activeWidth r ≤ frameSamples r := by
    decide +kernel
  have := fits r
  have upper := Nat.min_le_right (Config.pictureStart r)
    (frameSamples r - ((activeHeight r - 1) * lineSamples r + activeWidth r))
  unfold pictureLead
  omega

/-- When a position is an active sample that the frame in progress outputs. -/
theorem isActive_iff (s : State) (x y : Nat) :
    isActive s x y = true ↔ 0 < s.rtg.frameStart ∧ x < activeWidth s.rtg.raster
      ∧ y < activeHeight s.rtg.raster
      ∧ (frameSamples s.rtg.raster ≤ s.rtg.frameLen
        ∨ sampleTime s.rtg.raster x y < s.rtg.frameLen) := by
  simp only [isActive, isOutput, Bool.and_eq_true, Bool.or_eq_true, decide_eq_true_eq, and_assoc]

/-- Everything the row of an active sample can do: it renders the sample, or nothing. -/
theorem execActiveSample_cases (x y : Nat) (inputs : PerInput Pixel) (s : State) :
    (s.resetLow = false ∧ isActive s x y = true
      ∧ execActiveSample x y inputs s = .next (renderSample x y inputs s))
    ∨ ((s.resetLow = true ∨ isActive s x y = false) ∧ execActiveSample x y inputs s = .next s) := by
  unfold execActiveSample unlessReset
  cases hr : s.resetLow <;> cases ha : isActive s x y <;> simp [ha]

end Sys2Proof.Machine
end

