-- ==== Sys2Proof/Laws/State.lean ====
section
/-!
SUPPORT. Laws/State.lean: reading one field of the state after one update, for every named update and every
field, so that no later proof unfolds a record update; and reading the containers after their updates.
-/

namespace Sys2Proof

/-! ### One value for each port, keyer, input, resource -/


@[simp] theorem PerPort.get_const {α : Type} (a : α) (i : Port) : (PerPort.const a).get i = a := by
  cases i <;> rfl
@[simp] theorem PerPort.get_map {α β : Type} (f : α → β) (v : PerPort α) (i : Port) :
    (v.map f).get i = f (v.get i) := by
  cases i <;> rfl
@[simp] theorem PerPort.get_build {α : Type} (f : Port → α) (i : Port) : (PerPort.build f).get i = f i := by
  cases i <;> rfl
@[simp] theorem PerPort.get_set_self {α : Type} (v : PerPort α) (i : Port) (a : α) :
    (v.set i a).get i = a := by
  cases i <;> rfl
theorem PerPort.get_set {α : Type} (v : PerPort α) (i j : Port) (a : α) :
    (v.set i a).get j = if j = i then a else v.get j := by
  cases i <;> cases j <;> rfl
@[simp] theorem PerPort.get_set_ne {α : Type} (v : PerPort α) {i j : Port} (a : α) (h : j ≠ i) :
    (v.set i a).get j = v.get j := by
  rw [PerPort.get_set, if_neg h]


@[simp] theorem PerKeyer.get_const {α : Type} (a : α) (i : Keyer) : (PerKeyer.const a).get i = a := by
  cases i <;> rfl
@[simp] theorem PerKeyer.get_map {α β : Type} (f : α → β) (v : PerKeyer α) (i : Keyer) :
    (v.map f).get i = f (v.get i) := by
  cases i <;> rfl
@[simp] theorem PerKeyer.get_build {α : Type} (f : Keyer → α) (i : Keyer) : (PerKeyer.build f).get i = f i := by
  cases i <;> rfl
@[simp] theorem PerKeyer.get_set_self {α : Type} (v : PerKeyer α) (i : Keyer) (a : α) :
    (v.set i a).get i = a := by
  cases i <;> rfl
theorem PerKeyer.get_set {α : Type} (v : PerKeyer α) (i j : Keyer) (a : α) :
    (v.set i a).get j = if j = i then a else v.get j := by
  cases i <;> cases j <;> rfl
@[simp] theorem PerKeyer.get_set_ne {α : Type} (v : PerKeyer α) {i j : Keyer} (a : α) (h : j ≠ i) :
    (v.set i a).get j = v.get j := by
  rw [PerKeyer.get_set, if_neg h]

theorem PerPort.ext_get {α : Type} {v w : PerPort α} (h : ∀ i, v.get i = w.get i) : v = w := by
  cases v; cases w
  have h0 := h .cp0; have h1 := h .cp1; have h2 := h .cp2
  simp_all [PerPort.get]

theorem PerKeyer.ext_get {α : Type} {v w : PerKeyer α} (h : ∀ i, v.get i = w.get i) : v = w := by
  cases v; cases w
  have h1 := h .k1; have h2 := h .k2; have h3 := h .k3; have h4 := h .k4
  simp_all [PerKeyer.get]


@[simp] theorem PerInput.get_const {α : Type} (a : α) (i : InputId) : (PerInput.const a).get i = a := by
  cases i <;> simp [PerInput.get, PerInput.const]
@[simp] theorem PerInput.get_map {α β : Type} (f : α → β) (v : PerInput α) (i : InputId) :
    (v.map f).get i = f (v.get i) := by
  cases i <;> simp [PerInput.get, PerInput.map]
@[simp] theorem PerInput.get_set_self {α : Type} (v : PerInput α) (i : InputId) (a : α) :
    (v.set i a).get i = a := by
  cases i <;> simp [PerInput.get, PerInput.set]
theorem PerInput.get_set {α : Type} (v : PerInput α) (i j : InputId) (a : α) :
    (v.set i a).get j = if j = i then a else v.get j := by
  cases i <;> cases j <;> simp [PerInput.set, PerInput.get, PerKeyer.get_set]
@[simp] theorem PerInput.get_set_ne {α : Type} (v : PerInput α) {i j : InputId} (a : α) (h : j ≠ i) :
    (v.set i a).get j = v.get j := by
  rw [PerInput.get_set, if_neg h]

theorem PerInput.ext_get {α : Type} {v w : PerInput α} (h : ∀ i, v.get i = w.get i) : v = w := by
  cases v; cases w
  have ha := h .bga; have hb := h .bgb
  have hf := PerKeyer.ext_get fun k => h (.fill k)
  have hk := PerKeyer.ext_get fun k => h (.key k)
  simp_all [PerInput.get]


@[simp] theorem PerResource.get_const {α : Type} (a : α) (i : Resource) : (PerResource.const a).get i = a := by
  cases i <;> simp [PerResource.get, PerResource.const]
@[simp] theorem PerResource.get_map {α β : Type} (f : α → β) (v : PerResource α) (i : Resource) :
    (v.map f).get i = f (v.get i) := by
  cases i <;> simp [PerResource.get, PerResource.map]
@[simp] theorem PerResource.get_build {α : Type} (f : Resource → α) (i : Resource) : (PerResource.build f).get i = f i := by
  cases i <;> simp [PerResource.get, PerResource.build]

theorem PerResource.ext_get {α : Type} {v w : PerResource α} (h : ∀ i, v.get i = w.get i) : v = w := by
  cases v; cases w
  have hb := h .bkgd; have ht := h .trans; have hs := h .setup
  have hk := PerKeyer.ext_get fun k => h (.keyer k)
  simp_all [PerResource.get]


namespace Machine

@[simp] theorem get_buildInputs {α : Type} (f : InputId → α) (i : InputId) :
    (buildInputs f).get i = f i := by
  cases i <;> simp [buildInputs, PerInput.get]

/-! ### Named readings -/

@[simp] theorem State.port_eq (s : State) (p : Port) : s.port p = s.ports.get p := rfl
@[simp] theorem State.input_eq (s : State) (i : InputId) : s.input i = s.bi.inputs.get i := rfl
@[simp] theorem State.lever_eq (s : State) (p : Port) : s.lever p = s.lu.levers.get p := rfl

/-! ### Fields after the updates -/

@[simp] theorem withPending_pending (s : State) (cs : List Instr) :
    (s.withPending cs).pending = cs := rfl
@[simp] theorem withPending_resetLow (s : State) (cs : List Instr) :
    (s.withPending cs).resetLow = s.resetLow := rfl
@[simp] theorem withPending_rtg (s : State) (cs : List Instr) :
    (s.withPending cs).rtg = s.rtg := rfl
@[simp] theorem withPending_bi (s : State) (cs : List Instr) : (s.withPending cs).bi = s.bi := rfl
@[simp] theorem withPending_xl (s : State) (cs : List Instr) : (s.withPending cs).xl = s.xl := rfl
@[simp] theorem withPending_mes (s : State) (cs : List Instr) :
    (s.withPending cs).mes = s.mes := rfl
@[simp] theorem withPending_tc (s : State) (cs : List Instr) : (s.withPending cs).tc = s.tc := rfl
@[simp] theorem withPending_lu (s : State) (cs : List Instr) : (s.withPending cs).lu = s.lu := rfl
@[simp] theorem withPending_wg (s : State) (cs : List Instr) : (s.withPending cs).wg = s.wg := rfl
@[simp] theorem withPending_cmp (s : State) (cs : List Instr) :
    (s.withPending cs).cmp = s.cmp := rfl
@[simp] theorem withPending_tu (s : State) (cs : List Instr) : (s.withPending cs).tu = s.tu := rfl
@[simp] theorem withPending_cq (s : State) (cs : List Instr) : (s.withPending cs).cq = s.cq := rfl
@[simp] theorem withPending_ss (s : State) (cs : List Instr) : (s.withPending cs).ss = s.ss := rfl
@[simp] theorem withPending_ports (s : State) (cs : List Instr) :
    (s.withPending cs).ports = s.ports := rfl
@[simp] theorem withPending_lastGranted (s : State) (cs : List Instr) :
    (s.withPending cs).lastGranted = s.lastGranted := rfl

@[simp] theorem setPort_pending (s : State) (p : Port) (ps : PortState) :
    (s.setPort p ps).pending = s.pending := rfl
@[simp] theorem setPort_resetLow (s : State) (p : Port) (ps : PortState) :
    (s.setPort p ps).resetLow = s.resetLow := rfl
@[simp] theorem setPort_rtg (s : State) (p : Port) (ps : PortState) :
    (s.setPort p ps).rtg = s.rtg := rfl
@[simp] theorem setPort_bi (s : State) (p : Port) (ps : PortState) :
    (s.setPort p ps).bi = s.bi := rfl
@[simp] theorem setPort_xl (s : State) (p : Port) (ps : PortState) :
    (s.setPort p ps).xl = s.xl := rfl
@[simp] theorem setPort_mes (s : State) (p : Port) (ps : PortState) :
    (s.setPort p ps).mes = s.mes := rfl
@[simp] theorem setPort_tc (s : State) (p : Port) (ps : PortState) :
    (s.setPort p ps).tc = s.tc := rfl
@[simp] theorem setPort_lu (s : State) (p : Port) (ps : PortState) :
    (s.setPort p ps).lu = s.lu := rfl
@[simp] theorem setPort_wg (s : State) (p : Port) (ps : PortState) :
    (s.setPort p ps).wg = s.wg := rfl
@[simp] theorem setPort_cmp (s : State) (p : Port) (ps : PortState) :
    (s.setPort p ps).cmp = s.cmp := rfl
@[simp] theorem setPort_tu (s : State) (p : Port) (ps : PortState) :
    (s.setPort p ps).tu = s.tu := rfl
@[simp] theorem setPort_cq (s : State) (p : Port) (ps : PortState) :
    (s.setPort p ps).cq = s.cq := rfl
@[simp] theorem setPort_ss (s : State) (p : Port) (ps : PortState) :
    (s.setPort p ps).ss = s.ss := rfl
@[simp] theorem setPort_ports (s : State) (p : Port) (ps : PortState) :
    (s.setPort p ps).ports = s.ports.set p ps := rfl
@[simp] theorem setPort_lastGranted (s : State) (p : Port) (ps : PortState) :
    (s.setPort p ps).lastGranted = s.lastGranted := rfl

@[simp] theorem mapPort_pending (s : State) (p : Port) (f : PortState → PortState) :
    (mapPort p f s).pending = s.pending := rfl
@[simp] theorem mapPort_resetLow (s : State) (p : Port) (f : PortState → PortState) :
    (mapPort p f s).resetLow = s.resetLow := rfl
@[simp] theorem mapPort_rtg (s : State) (p : Port) (f : PortState → PortState) :
    (mapPort p f s).rtg = s.rtg := rfl
@[simp] theorem mapPort_bi (s : State) (p : Port) (f : PortState → PortState) :
    (mapPort p f s).bi = s.bi := rfl
@[simp] theorem mapPort_xl (s : State) (p : Port) (f : PortState → PortState) :
    (mapPort p f s).xl = s.xl := rfl
@[simp] theorem mapPort_mes (s : State) (p : Port) (f : PortState → PortState) :
    (mapPort p f s).mes = s.mes := rfl
@[simp] theorem mapPort_tc (s : State) (p : Port) (f : PortState → PortState) :
    (mapPort p f s).tc = s.tc := rfl
@[simp] theorem mapPort_lu (s : State) (p : Port) (f : PortState → PortState) :
    (mapPort p f s).lu = s.lu := rfl
@[simp] theorem mapPort_wg (s : State) (p : Port) (f : PortState → PortState) :
    (mapPort p f s).wg = s.wg := rfl
@[simp] theorem mapPort_cmp (s : State) (p : Port) (f : PortState → PortState) :
    (mapPort p f s).cmp = s.cmp := rfl
@[simp] theorem mapPort_tu (s : State) (p : Port) (f : PortState → PortState) :
    (mapPort p f s).tu = s.tu := rfl
@[simp] theorem mapPort_cq (s : State) (p : Port) (f : PortState → PortState) :
    (mapPort p f s).cq = s.cq := rfl
@[simp] theorem mapPort_ss (s : State) (p : Port) (f : PortState → PortState) :
    (mapPort p f s).ss = s.ss := rfl
@[simp] theorem mapPort_ports (s : State) (p : Port) (f : PortState → PortState) :
    (mapPort p f s).ports = s.ports.set p (f (s.ports.get p)) := rfl
@[simp] theorem mapPort_lastGranted (s : State) (p : Port) (f : PortState → PortState) :
    (mapPort p f s).lastGranted = s.lastGranted := rfl

@[simp] theorem raiseTo_pending (s : State) (n : Notice) (p : Port) :
    (raiseTo n p s).pending = s.pending := rfl
@[simp] theorem raiseTo_resetLow (s : State) (n : Notice) (p : Port) :
    (raiseTo n p s).resetLow = s.resetLow := rfl
@[simp] theorem raiseTo_rtg (s : State) (n : Notice) (p : Port) : (raiseTo n p s).rtg = s.rtg := rfl
@[simp] theorem raiseTo_bi (s : State) (n : Notice) (p : Port) : (raiseTo n p s).bi = s.bi := rfl
@[simp] theorem raiseTo_xl (s : State) (n : Notice) (p : Port) : (raiseTo n p s).xl = s.xl := rfl
@[simp] theorem raiseTo_mes (s : State) (n : Notice) (p : Port) : (raiseTo n p s).mes = s.mes := rfl
@[simp] theorem raiseTo_tc (s : State) (n : Notice) (p : Port) : (raiseTo n p s).tc = s.tc := rfl
@[simp] theorem raiseTo_lu (s : State) (n : Notice) (p : Port) : (raiseTo n p s).lu = s.lu := rfl
@[simp] theorem raiseTo_wg (s : State) (n : Notice) (p : Port) : (raiseTo n p s).wg = s.wg := rfl
@[simp] theorem raiseTo_cmp (s : State) (n : Notice) (p : Port) : (raiseTo n p s).cmp = s.cmp := rfl
@[simp] theorem raiseTo_tu (s : State) (n : Notice) (p : Port) : (raiseTo n p s).tu = s.tu := rfl
@[simp] theorem raiseTo_cq (s : State) (n : Notice) (p : Port) : (raiseTo n p s).cq = s.cq := rfl
@[simp] theorem raiseTo_ss (s : State) (n : Notice) (p : Port) : (raiseTo n p s).ss = s.ss := rfl
@[simp] theorem raiseTo_ports (s : State) (n : Notice) (p : Port) :
    (raiseTo n p s).ports = s.ports.set p { s.ports.get p with flags := setFlag (s.ports.get p).flags n } := rfl
@[simp] theorem raiseTo_lastGranted (s : State) (n : Notice) (p : Port) :
    (raiseTo n p s).lastGranted = s.lastGranted := rfl

@[simp] theorem raiseAll_pending (s : State) (n : Notice) :
    (raiseAll n s).pending = s.pending := rfl
@[simp] theorem raiseAll_resetLow (s : State) (n : Notice) :
    (raiseAll n s).resetLow = s.resetLow := rfl
@[simp] theorem raiseAll_rtg (s : State) (n : Notice) : (raiseAll n s).rtg = s.rtg := rfl
@[simp] theorem raiseAll_bi (s : State) (n : Notice) : (raiseAll n s).bi = s.bi := rfl
@[simp] theorem raiseAll_xl (s : State) (n : Notice) : (raiseAll n s).xl = s.xl := rfl
@[simp] theorem raiseAll_mes (s : State) (n : Notice) : (raiseAll n s).mes = s.mes := rfl
@[simp] theorem raiseAll_tc (s : State) (n : Notice) : (raiseAll n s).tc = s.tc := rfl
@[simp] theorem raiseAll_lu (s : State) (n : Notice) : (raiseAll n s).lu = s.lu := rfl
@[simp] theorem raiseAll_wg (s : State) (n : Notice) : (raiseAll n s).wg = s.wg := rfl
@[simp] theorem raiseAll_cmp (s : State) (n : Notice) : (raiseAll n s).cmp = s.cmp := rfl
@[simp] theorem raiseAll_tu (s : State) (n : Notice) : (raiseAll n s).tu = s.tu := rfl
@[simp] theorem raiseAll_cq (s : State) (n : Notice) : (raiseAll n s).cq = s.cq := rfl
@[simp] theorem raiseAll_ss (s : State) (n : Notice) : (raiseAll n s).ss = s.ss := rfl
@[simp] theorem raiseAll_ports (s : State) (n : Notice) :
    (raiseAll n s).ports = s.ports.map fun ps => { ps with flags := setFlag ps.flags n } := rfl
@[simp] theorem raiseAll_lastGranted (s : State) (n : Notice) :
    (raiseAll n s).lastGranted = s.lastGranted := rfl

@[simp] theorem raiseEach_pending (s : State) (n : Notice) (pick : Port → Bool) :
    (raiseEach n pick s).pending = s.pending := rfl
@[simp] theorem raiseEach_resetLow (s : State) (n : Notice) (pick : Port → Bool) :
    (raiseEach n pick s).resetLow = s.resetLow := rfl
@[simp] theorem raiseEach_rtg (s : State) (n : Notice) (pick : Port → Bool) :
    (raiseEach n pick s).rtg = s.rtg := rfl
@[simp] theorem raiseEach_bi (s : State) (n : Notice) (pick : Port → Bool) :
    (raiseEach n pick s).bi = s.bi := rfl
@[simp] theorem raiseEach_xl (s : State) (n : Notice) (pick : Port → Bool) :
    (raiseEach n pick s).xl = s.xl := rfl
@[simp] theorem raiseEach_mes (s : State) (n : Notice) (pick : Port → Bool) :
    (raiseEach n pick s).mes = s.mes := rfl
@[simp] theorem raiseEach_tc (s : State) (n : Notice) (pick : Port → Bool) :
    (raiseEach n pick s).tc = s.tc := rfl
@[simp] theorem raiseEach_lu (s : State) (n : Notice) (pick : Port → Bool) :
    (raiseEach n pick s).lu = s.lu := rfl
@[simp] theorem raiseEach_wg (s : State) (n : Notice) (pick : Port → Bool) :
    (raiseEach n pick s).wg = s.wg := rfl
@[simp] theorem raiseEach_cmp (s : State) (n : Notice) (pick : Port → Bool) :
    (raiseEach n pick s).cmp = s.cmp := rfl
@[simp] theorem raiseEach_tu (s : State) (n : Notice) (pick : Port → Bool) :
    (raiseEach n pick s).tu = s.tu := rfl
@[simp] theorem raiseEach_cq (s : State) (n : Notice) (pick : Port → Bool) :
    (raiseEach n pick s).cq = s.cq := rfl
@[simp] theorem raiseEach_ss (s : State) (n : Notice) (pick : Port → Bool) :
    (raiseEach n pick s).ss = s.ss := rfl
@[simp] theorem raiseEach_lastGranted (s : State) (n : Notice) (pick : Port → Bool) :
    (raiseEach n pick s).lastGranted = s.lastGranted := rfl

@[simp] theorem grant_pending (s : State) (p : Port) : (grant p s).pending = s.pending := rfl
@[simp] theorem grant_resetLow (s : State) (p : Port) : (grant p s).resetLow = s.resetLow := rfl
@[simp] theorem grant_rtg (s : State) (p : Port) : (grant p s).rtg = s.rtg := rfl
@[simp] theorem grant_bi (s : State) (p : Port) : (grant p s).bi = s.bi := rfl
@[simp] theorem grant_xl (s : State) (p : Port) : (grant p s).xl = s.xl := rfl
@[simp] theorem grant_mes (s : State) (p : Port) : (grant p s).mes = s.mes := rfl
@[simp] theorem grant_tc (s : State) (p : Port) : (grant p s).tc = s.tc := rfl
@[simp] theorem grant_lu (s : State) (p : Port) : (grant p s).lu = s.lu := rfl
@[simp] theorem grant_wg (s : State) (p : Port) : (grant p s).wg = s.wg := rfl
@[simp] theorem grant_cmp (s : State) (p : Port) : (grant p s).cmp = s.cmp := rfl
@[simp] theorem grant_tu (s : State) (p : Port) : (grant p s).tu = s.tu := rfl
@[simp] theorem grant_cq (s : State) (p : Port) : (grant p s).cq = s.cq := rfl
@[simp] theorem grant_ss (s : State) (p : Port) : (grant p s).ss = s.ss := rfl
@[simp] theorem grant_ports (s : State) (p : Port) : (grant p s).ports = s.ports := rfl
@[simp] theorem grant_lastGranted (s : State) (p : Port) : (grant p s).lastGranted = p := rfl

@[simp] theorem reply_pending (s : State) (p : Port) (o : CmdOutcome) (d : List Byte) :
    (reply p o d s).pending = s.pending := rfl
@[simp] theorem reply_resetLow (s : State) (p : Port) (o : CmdOutcome) (d : List Byte) :
    (reply p o d s).resetLow = s.resetLow := rfl
@[simp] theorem reply_rtg (s : State) (p : Port) (o : CmdOutcome) (d : List Byte) :
    (reply p o d s).rtg = s.rtg := rfl
@[simp] theorem reply_bi (s : State) (p : Port) (o : CmdOutcome) (d : List Byte) :
    (reply p o d s).bi = s.bi := rfl
@[simp] theorem reply_xl (s : State) (p : Port) (o : CmdOutcome) (d : List Byte) :
    (reply p o d s).xl = s.xl := rfl
@[simp] theorem reply_mes (s : State) (p : Port) (o : CmdOutcome) (d : List Byte) :
    (reply p o d s).mes = s.mes := rfl
@[simp] theorem reply_tc (s : State) (p : Port) (o : CmdOutcome) (d : List Byte) :
    (reply p o d s).tc = s.tc := rfl
@[simp] theorem reply_lu (s : State) (p : Port) (o : CmdOutcome) (d : List Byte) :
    (reply p o d s).lu = s.lu := rfl
@[simp] theorem reply_wg (s : State) (p : Port) (o : CmdOutcome) (d : List Byte) :
    (reply p o d s).wg = s.wg := rfl
@[simp] theorem reply_cmp (s : State) (p : Port) (o : CmdOutcome) (d : List Byte) :
    (reply p o d s).cmp = s.cmp := rfl
@[simp] theorem reply_tu (s : State) (p : Port) (o : CmdOutcome) (d : List Byte) :
    (reply p o d s).tu = s.tu := rfl
@[simp] theorem reply_cq (s : State) (p : Port) (o : CmdOutcome) (d : List Byte) :
    (reply p o d s).cq = s.cq := rfl
@[simp] theorem reply_ss (s : State) (p : Port) (o : CmdOutcome) (d : List Byte) :
    (reply p o d s).ss = s.ss := rfl
@[simp] theorem reply_ports (s : State) (p : Port) (o : CmdOutcome) (d : List Byte) :
    (reply p o d s).ports = s.ports.set p { s.ports.get p with phase := .awaiting, reply := some ⟨o, d⟩, response := [] } := rfl
@[simp] theorem reply_lastGranted (s : State) (p : Port) (o : CmdOutcome) (d : List Byte) :
    (reply p o d s).lastGranted = s.lastGranted := rfl

@[simp] theorem joinWaiting_pending (s : State) (p : Port) (f : WaitingFrame) :
    (joinWaiting p f s).pending = s.pending := rfl
@[simp] theorem joinWaiting_resetLow (s : State) (p : Port) (f : WaitingFrame) :
    (joinWaiting p f s).resetLow = s.resetLow := rfl
@[simp] theorem joinWaiting_rtg (s : State) (p : Port) (f : WaitingFrame) :
    (joinWaiting p f s).rtg = s.rtg := rfl
@[simp] theorem joinWaiting_bi (s : State) (p : Port) (f : WaitingFrame) :
    (joinWaiting p f s).bi = s.bi := rfl
@[simp] theorem joinWaiting_xl (s : State) (p : Port) (f : WaitingFrame) :
    (joinWaiting p f s).xl = s.xl := rfl
@[simp] theorem joinWaiting_mes (s : State) (p : Port) (f : WaitingFrame) :
    (joinWaiting p f s).mes = s.mes := rfl
@[simp] theorem joinWaiting_tc (s : State) (p : Port) (f : WaitingFrame) :
    (joinWaiting p f s).tc = s.tc := rfl
@[simp] theorem joinWaiting_lu (s : State) (p : Port) (f : WaitingFrame) :
    (joinWaiting p f s).lu = s.lu := rfl
@[simp] theorem joinWaiting_wg (s : State) (p : Port) (f : WaitingFrame) :
    (joinWaiting p f s).wg = s.wg := rfl
@[simp] theorem joinWaiting_cmp (s : State) (p : Port) (f : WaitingFrame) :
    (joinWaiting p f s).cmp = s.cmp := rfl
@[simp] theorem joinWaiting_tu (s : State) (p : Port) (f : WaitingFrame) :
    (joinWaiting p f s).tu = s.tu := rfl
@[simp] theorem joinWaiting_cq (s : State) (p : Port) (f : WaitingFrame) :
    (joinWaiting p f s).cq = s.cq := rfl
@[simp] theorem joinWaiting_ss (s : State) (p : Port) (f : WaitingFrame) :
    (joinWaiting p f s).ss = s.ss := rfl
@[simp] theorem joinWaiting_ports (s : State) (p : Port) (f : WaitingFrame) :
    (joinWaiting p f s).ports = s.ports.set p { s.ports.get p with
      phase := .awaiting, reply := none, response := [], waiting := (s.ports.get p).waiting ++ [f] } := rfl
@[simp] theorem joinWaiting_lastGranted (s : State) (p : Port) (f : WaitingFrame) :
    (joinWaiting p f s).lastGranted = s.lastGranted := rfl

@[simp] theorem setStreaming_pending (s : State) (p : Port) (on : Bool) :
    (setStreaming p on s).pending = s.pending := rfl
@[simp] theorem setStreaming_resetLow (s : State) (p : Port) (on : Bool) :
    (setStreaming p on s).resetLow = s.resetLow := rfl
@[simp] theorem setStreaming_rtg (s : State) (p : Port) (on : Bool) :
    (setStreaming p on s).rtg = s.rtg := rfl
@[simp] theorem setStreaming_bi (s : State) (p : Port) (on : Bool) :
    (setStreaming p on s).bi = s.bi := rfl
@[simp] theorem setStreaming_xl (s : State) (p : Port) (on : Bool) :
    (setStreaming p on s).xl = s.xl := rfl
@[simp] theorem setStreaming_mes (s : State) (p : Port) (on : Bool) :
    (setStreaming p on s).mes = s.mes := rfl
@[simp] theorem setStreaming_tc (s : State) (p : Port) (on : Bool) :
    (setStreaming p on s).tc = s.tc := rfl
@[simp] theorem setStreaming_lu (s : State) (p : Port) (on : Bool) :
    (setStreaming p on s).lu = s.lu := rfl
@[simp] theorem setStreaming_wg (s : State) (p : Port) (on : Bool) :
    (setStreaming p on s).wg = s.wg := rfl
@[simp] theorem setStreaming_cmp (s : State) (p : Port) (on : Bool) :
    (setStreaming p on s).cmp = s.cmp := rfl
@[simp] theorem setStreaming_tu (s : State) (p : Port) (on : Bool) :
    (setStreaming p on s).tu = s.tu := rfl
@[simp] theorem setStreaming_cq (s : State) (p : Port) (on : Bool) :
    (setStreaming p on s).cq = s.cq := rfl
@[simp] theorem setStreaming_ss (s : State) (p : Port) (on : Bool) :
    (setStreaming p on s).ss = s.ss := rfl
@[simp] theorem setStreaming_ports (s : State) (p : Port) (on : Bool) :
    (setStreaming p on s).ports = s.ports.set p { s.ports.get p with streaming := on } := rfl
@[simp] theorem setStreaming_lastGranted (s : State) (p : Port) (on : Bool) :
    (setStreaming p on s).lastGranted = s.lastGranted := rfl

@[simp] theorem setInput_pending (s : State) (i : InputId) (r : InputRec) :
    (s.setInput i r).pending = s.pending := rfl
@[simp] theorem setInput_resetLow (s : State) (i : InputId) (r : InputRec) :
    (s.setInput i r).resetLow = s.resetLow := rfl
@[simp] theorem setInput_rtg (s : State) (i : InputId) (r : InputRec) :
    (s.setInput i r).rtg = s.rtg := rfl
@[simp] theorem setInput_bi (s : State) (i : InputId) (r : InputRec) :
    (s.setInput i r).bi = { s.bi with inputs := s.bi.inputs.set i r } := rfl
@[simp] theorem setInput_xl (s : State) (i : InputId) (r : InputRec) :
    (s.setInput i r).xl = s.xl := rfl
@[simp] theorem setInput_mes (s : State) (i : InputId) (r : InputRec) :
    (s.setInput i r).mes = s.mes := rfl
@[simp] theorem setInput_tc (s : State) (i : InputId) (r : InputRec) :
    (s.setInput i r).tc = s.tc := rfl
@[simp] theorem setInput_lu (s : State) (i : InputId) (r : InputRec) :
    (s.setInput i r).lu = s.lu := rfl
@[simp] theorem setInput_wg (s : State) (i : InputId) (r : InputRec) :
    (s.setInput i r).wg = s.wg := rfl
@[simp] theorem setInput_cmp (s : State) (i : InputId) (r : InputRec) :
    (s.setInput i r).cmp = s.cmp := rfl
@[simp] theorem setInput_tu (s : State) (i : InputId) (r : InputRec) :
    (s.setInput i r).tu = s.tu := rfl
@[simp] theorem setInput_cq (s : State) (i : InputId) (r : InputRec) :
    (s.setInput i r).cq = s.cq := rfl
@[simp] theorem setInput_ss (s : State) (i : InputId) (r : InputRec) :
    (s.setInput i r).ss = s.ss := rfl
@[simp] theorem setInput_ports (s : State) (i : InputId) (r : InputRec) :
    (s.setInput i r).ports = s.ports := rfl
@[simp] theorem setInput_lastGranted (s : State) (i : InputId) (r : InputRec) :
    (s.setInput i r).lastGranted = s.lastGranted := rfl

@[simp] theorem request_pending (s : State) (i : InputId) (src : Source) :
    (request i src s).pending = s.pending := rfl
@[simp] theorem request_resetLow (s : State) (i : InputId) (src : Source) :
    (request i src s).resetLow = s.resetLow := rfl
@[simp] theorem request_rtg (s : State) (i : InputId) (src : Source) :
    (request i src s).rtg = s.rtg := rfl
@[simp] theorem request_bi (s : State) (i : InputId) (src : Source) :
    (request i src s).bi = { s.bi with inputs := s.bi.inputs.set i { s.bi.inputs.get i with requested := src } } := rfl
@[simp] theorem request_xl (s : State) (i : InputId) (src : Source) :
    (request i src s).xl = s.xl := rfl
@[simp] theorem request_mes (s : State) (i : InputId) (src : Source) :
    (request i src s).mes = s.mes := rfl
@[simp] theorem request_tc (s : State) (i : InputId) (src : Source) :
    (request i src s).tc = s.tc := rfl
@[simp] theorem request_lu (s : State) (i : InputId) (src : Source) :
    (request i src s).lu = s.lu := rfl
@[simp] theorem request_wg (s : State) (i : InputId) (src : Source) :
    (request i src s).wg = s.wg := rfl
@[simp] theorem request_cmp (s : State) (i : InputId) (src : Source) :
    (request i src s).cmp = s.cmp := rfl
@[simp] theorem request_tu (s : State) (i : InputId) (src : Source) :
    (request i src s).tu = s.tu := rfl
@[simp] theorem request_cq (s : State) (i : InputId) (src : Source) :
    (request i src s).cq = s.cq := rfl
@[simp] theorem request_ss (s : State) (i : InputId) (src : Source) :
    (request i src s).ss = s.ss := rfl
@[simp] theorem request_ports (s : State) (i : InputId) (src : Source) :
    (request i src s).ports = s.ports := rfl
@[simp] theorem request_lastGranted (s : State) (i : InputId) (src : Source) :
    (request i src s).lastGranted = s.lastGranted := rfl

@[simp] theorem mapInputs_pending (s : State) (f : InputRec → InputRec) :
    (mapInputs f s).pending = s.pending := rfl
@[simp] theorem mapInputs_resetLow (s : State) (f : InputRec → InputRec) :
    (mapInputs f s).resetLow = s.resetLow := rfl
@[simp] theorem mapInputs_rtg (s : State) (f : InputRec → InputRec) :
    (mapInputs f s).rtg = s.rtg := rfl
@[simp] theorem mapInputs_bi (s : State) (f : InputRec → InputRec) :
    (mapInputs f s).bi = { s.bi with inputs := s.bi.inputs.map f } := rfl
@[simp] theorem mapInputs_xl (s : State) (f : InputRec → InputRec) :
    (mapInputs f s).xl = s.xl := rfl
@[simp] theorem mapInputs_mes (s : State) (f : InputRec → InputRec) :
    (mapInputs f s).mes = s.mes := rfl
@[simp] theorem mapInputs_tc (s : State) (f : InputRec → InputRec) :
    (mapInputs f s).tc = s.tc := rfl
@[simp] theorem mapInputs_lu (s : State) (f : InputRec → InputRec) :
    (mapInputs f s).lu = s.lu := rfl
@[simp] theorem mapInputs_wg (s : State) (f : InputRec → InputRec) :
    (mapInputs f s).wg = s.wg := rfl
@[simp] theorem mapInputs_cmp (s : State) (f : InputRec → InputRec) :
    (mapInputs f s).cmp = s.cmp := rfl
@[simp] theorem mapInputs_tu (s : State) (f : InputRec → InputRec) :
    (mapInputs f s).tu = s.tu := rfl
@[simp] theorem mapInputs_cq (s : State) (f : InputRec → InputRec) :
    (mapInputs f s).cq = s.cq := rfl
@[simp] theorem mapInputs_ss (s : State) (f : InputRec → InputRec) :
    (mapInputs f s).ss = s.ss := rfl
@[simp] theorem mapInputs_ports (s : State) (f : InputRec → InputRec) :
    (mapInputs f s).ports = s.ports := rfl
@[simp] theorem mapInputs_lastGranted (s : State) (f : InputRec → InputRec) :
    (mapInputs f s).lastGranted = s.lastGranted := rfl

@[simp] theorem mapNext_pending (s : State) (f : Setup → Setup) :
    (mapNext f s).pending = s.pending := rfl
@[simp] theorem mapNext_resetLow (s : State) (f : Setup → Setup) :
    (mapNext f s).resetLow = s.resetLow := rfl
@[simp] theorem mapNext_rtg (s : State) (f : Setup → Setup) : (mapNext f s).rtg = s.rtg := rfl
@[simp] theorem mapNext_bi (s : State) (f : Setup → Setup) : (mapNext f s).bi = s.bi := rfl
@[simp] theorem mapNext_xl (s : State) (f : Setup → Setup) : (mapNext f s).xl = s.xl := rfl
@[simp] theorem mapNext_mes (s : State) (f : Setup → Setup) :
    (mapNext f s).mes = { s.mes with next := f s.mes.next } := rfl
@[simp] theorem mapNext_tc (s : State) (f : Setup → Setup) : (mapNext f s).tc = s.tc := rfl
@[simp] theorem mapNext_lu (s : State) (f : Setup → Setup) : (mapNext f s).lu = s.lu := rfl
@[simp] theorem mapNext_wg (s : State) (f : Setup → Setup) : (mapNext f s).wg = s.wg := rfl
@[simp] theorem mapNext_cmp (s : State) (f : Setup → Setup) : (mapNext f s).cmp = s.cmp := rfl
@[simp] theorem mapNext_tu (s : State) (f : Setup → Setup) : (mapNext f s).tu = s.tu := rfl
@[simp] theorem mapNext_cq (s : State) (f : Setup → Setup) : (mapNext f s).cq = s.cq := rfl
@[simp] theorem mapNext_ss (s : State) (f : Setup → Setup) : (mapNext f s).ss = s.ss := rfl
@[simp] theorem mapNext_ports (s : State) (f : Setup → Setup) : (mapNext f s).ports = s.ports := rfl
@[simp] theorem mapNext_lastGranted (s : State) (f : Setup → Setup) :
    (mapNext f s).lastGranted = s.lastGranted := rfl

@[simp] theorem writeWipe_pending (s : State) (w : WipeSetup) :
    (writeWipe w s).pending = s.pending := rfl
@[simp] theorem writeWipe_resetLow (s : State) (w : WipeSetup) :
    (writeWipe w s).resetLow = s.resetLow := rfl
@[simp] theorem writeWipe_rtg (s : State) (w : WipeSetup) : (writeWipe w s).rtg = s.rtg := rfl
@[simp] theorem writeWipe_bi (s : State) (w : WipeSetup) : (writeWipe w s).bi = s.bi := rfl
@[simp] theorem writeWipe_xl (s : State) (w : WipeSetup) : (writeWipe w s).xl = s.xl := rfl
@[simp] theorem writeWipe_mes (s : State) (w : WipeSetup) :
    (writeWipe w s).mes = { s.mes with next := { s.mes.next with wipe := w } } := rfl
@[simp] theorem writeWipe_tc (s : State) (w : WipeSetup) : (writeWipe w s).tc = s.tc := rfl
@[simp] theorem writeWipe_lu (s : State) (w : WipeSetup) : (writeWipe w s).lu = s.lu := rfl
@[simp] theorem writeWipe_wg (s : State) (w : WipeSetup) :
    (writeWipe w s).wg = { s.wg with reload := true } := rfl
@[simp] theorem writeWipe_cmp (s : State) (w : WipeSetup) : (writeWipe w s).cmp = s.cmp := rfl
@[simp] theorem writeWipe_tu (s : State) (w : WipeSetup) : (writeWipe w s).tu = s.tu := rfl
@[simp] theorem writeWipe_cq (s : State) (w : WipeSetup) : (writeWipe w s).cq = s.cq := rfl
@[simp] theorem writeWipe_ss (s : State) (w : WipeSetup) : (writeWipe w s).ss = s.ss := rfl
@[simp] theorem writeWipe_ports (s : State) (w : WipeSetup) : (writeWipe w s).ports = s.ports := rfl
@[simp] theorem writeWipe_lastGranted (s : State) (w : WipeSetup) :
    (writeWipe w s).lastGranted = s.lastGranted := rfl

@[simp] theorem setLocks_pending (s : State) (l : PerResource (Option Port)) :
    (setLocks l s).pending = s.pending := rfl
@[simp] theorem setLocks_resetLow (s : State) (l : PerResource (Option Port)) :
    (setLocks l s).resetLow = s.resetLow := rfl
@[simp] theorem setLocks_rtg (s : State) (l : PerResource (Option Port)) :
    (setLocks l s).rtg = s.rtg := rfl
@[simp] theorem setLocks_bi (s : State) (l : PerResource (Option Port)) :
    (setLocks l s).bi = s.bi := rfl
@[simp] theorem setLocks_xl (s : State) (l : PerResource (Option Port)) :
    (setLocks l s).xl = s.xl := rfl
@[simp] theorem setLocks_mes (s : State) (l : PerResource (Option Port)) :
    (setLocks l s).mes = { s.mes with locks := l } := rfl
@[simp] theorem setLocks_tc (s : State) (l : PerResource (Option Port)) :
    (setLocks l s).tc = s.tc := rfl
@[simp] theorem setLocks_lu (s : State) (l : PerResource (Option Port)) :
    (setLocks l s).lu = s.lu := rfl
@[simp] theorem setLocks_wg (s : State) (l : PerResource (Option Port)) :
    (setLocks l s).wg = s.wg := rfl
@[simp] theorem setLocks_cmp (s : State) (l : PerResource (Option Port)) :
    (setLocks l s).cmp = s.cmp := rfl
@[simp] theorem setLocks_tu (s : State) (l : PerResource (Option Port)) :
    (setLocks l s).tu = s.tu := rfl
@[simp] theorem setLocks_cq (s : State) (l : PerResource (Option Port)) :
    (setLocks l s).cq = s.cq := rfl
@[simp] theorem setLocks_ss (s : State) (l : PerResource (Option Port)) :
    (setLocks l s).ss = s.ss := rfl
@[simp] theorem setLocks_ports (s : State) (l : PerResource (Option Port)) :
    (setLocks l s).ports = s.ports := rfl
@[simp] theorem setLocks_lastGranted (s : State) (l : PerResource (Option Port)) :
    (setLocks l s).lastGranted = s.lastGranted := rfl

@[simp] theorem copyNextToLive_pending (s : State) : (copyNextToLive s).pending = s.pending := rfl
@[simp] theorem copyNextToLive_resetLow (s : State) :
    (copyNextToLive s).resetLow = s.resetLow := rfl
@[simp] theorem copyNextToLive_rtg (s : State) : (copyNextToLive s).rtg = s.rtg := rfl
@[simp] theorem copyNextToLive_bi (s : State) : (copyNextToLive s).bi = s.bi := rfl
@[simp] theorem copyNextToLive_xl (s : State) : (copyNextToLive s).xl = s.xl := rfl
@[simp] theorem copyNextToLive_mes (s : State) :
    (copyNextToLive s).mes = { s.mes with live := s.mes.next } := rfl
@[simp] theorem copyNextToLive_tc (s : State) : (copyNextToLive s).tc = s.tc := rfl
@[simp] theorem copyNextToLive_lu (s : State) : (copyNextToLive s).lu = s.lu := rfl
@[simp] theorem copyNextToLive_wg (s : State) : (copyNextToLive s).wg = s.wg := rfl
@[simp] theorem copyNextToLive_cmp (s : State) : (copyNextToLive s).cmp = s.cmp := rfl
@[simp] theorem copyNextToLive_tu (s : State) : (copyNextToLive s).tu = s.tu := rfl
@[simp] theorem copyNextToLive_cq (s : State) : (copyNextToLive s).cq = s.cq := rfl
@[simp] theorem copyNextToLive_ss (s : State) : (copyNextToLive s).ss = s.ss := rfl
@[simp] theorem copyNextToLive_ports (s : State) : (copyNextToLive s).ports = s.ports := rfl
@[simp] theorem copyNextToLive_lastGranted (s : State) :
    (copyNextToLive s).lastGranted = s.lastGranted := rfl

@[simp] theorem mapTc_pending (s : State) (f : Tc → Tc) : (mapTc f s).pending = s.pending := rfl
@[simp] theorem mapTc_resetLow (s : State) (f : Tc → Tc) : (mapTc f s).resetLow = s.resetLow := rfl
@[simp] theorem mapTc_rtg (s : State) (f : Tc → Tc) : (mapTc f s).rtg = s.rtg := rfl
@[simp] theorem mapTc_bi (s : State) (f : Tc → Tc) : (mapTc f s).bi = s.bi := rfl
@[simp] theorem mapTc_xl (s : State) (f : Tc → Tc) : (mapTc f s).xl = s.xl := rfl
@[simp] theorem mapTc_mes (s : State) (f : Tc → Tc) : (mapTc f s).mes = s.mes := rfl
@[simp] theorem mapTc_tc (s : State) (f : Tc → Tc) : (mapTc f s).tc = f s.tc := rfl
@[simp] theorem mapTc_lu (s : State) (f : Tc → Tc) : (mapTc f s).lu = s.lu := rfl
@[simp] theorem mapTc_wg (s : State) (f : Tc → Tc) : (mapTc f s).wg = s.wg := rfl
@[simp] theorem mapTc_cmp (s : State) (f : Tc → Tc) : (mapTc f s).cmp = s.cmp := rfl
@[simp] theorem mapTc_tu (s : State) (f : Tc → Tc) : (mapTc f s).tu = s.tu := rfl
@[simp] theorem mapTc_cq (s : State) (f : Tc → Tc) : (mapTc f s).cq = s.cq := rfl
@[simp] theorem mapTc_ss (s : State) (f : Tc → Tc) : (mapTc f s).ss = s.ss := rfl
@[simp] theorem mapTc_ports (s : State) (f : Tc → Tc) : (mapTc f s).ports = s.ports := rfl
@[simp] theorem mapTc_lastGranted (s : State) (f : Tc → Tc) :
    (mapTc f s).lastGranted = s.lastGranted := rfl

@[simp] theorem clearMain_pending (s : State) : (clearMain s).pending = s.pending := rfl
@[simp] theorem clearMain_resetLow (s : State) : (clearMain s).resetLow = s.resetLow := rfl
@[simp] theorem clearMain_rtg (s : State) : (clearMain s).rtg = s.rtg := rfl
@[simp] theorem clearMain_bi (s : State) : (clearMain s).bi = s.bi := rfl
@[simp] theorem clearMain_xl (s : State) : (clearMain s).xl = s.xl := rfl
@[simp] theorem clearMain_mes (s : State) : (clearMain s).mes = s.mes := rfl
@[simp] theorem clearMain_tc (s : State) :
    (clearMain s).tc = { s.tc with main := .none, issuing := .const false, mainDeferrals := 0 } := rfl
@[simp] theorem clearMain_lu (s : State) : (clearMain s).lu = s.lu := rfl
@[simp] theorem clearMain_wg (s : State) : (clearMain s).wg = s.wg := rfl
@[simp] theorem clearMain_cmp (s : State) : (clearMain s).cmp = s.cmp := rfl
@[simp] theorem clearMain_tu (s : State) : (clearMain s).tu = s.tu := rfl
@[simp] theorem clearMain_cq (s : State) : (clearMain s).cq = s.cq := rfl
@[simp] theorem clearMain_ss (s : State) : (clearMain s).ss = s.ss := rfl
@[simp] theorem clearMain_ports (s : State) : (clearMain s).ports = s.ports := rfl
@[simp] theorem clearMain_lastGranted (s : State) : (clearMain s).lastGranted = s.lastGranted := rfl

@[simp] theorem deferMain_pending (s : State) : (deferMain s).pending = s.pending := rfl
@[simp] theorem deferMain_resetLow (s : State) : (deferMain s).resetLow = s.resetLow := rfl
@[simp] theorem deferMain_rtg (s : State) : (deferMain s).rtg = s.rtg := rfl
@[simp] theorem deferMain_bi (s : State) : (deferMain s).bi = s.bi := rfl
@[simp] theorem deferMain_xl (s : State) : (deferMain s).xl = s.xl := rfl
@[simp] theorem deferMain_mes (s : State) : (deferMain s).mes = s.mes := rfl
@[simp] theorem deferMain_tc (s : State) :
    (deferMain s).tc = { s.tc with mainDeferrals := s.tc.mainDeferrals + 1 } := rfl
@[simp] theorem deferMain_lu (s : State) : (deferMain s).lu = s.lu := rfl
@[simp] theorem deferMain_wg (s : State) : (deferMain s).wg = s.wg := rfl
@[simp] theorem deferMain_cmp (s : State) : (deferMain s).cmp = s.cmp := rfl
@[simp] theorem deferMain_tu (s : State) : (deferMain s).tu = s.tu := rfl
@[simp] theorem deferMain_cq (s : State) : (deferMain s).cq = s.cq := rfl
@[simp] theorem deferMain_ss (s : State) : (deferMain s).ss = s.ss := rfl
@[simp] theorem deferMain_ports (s : State) : (deferMain s).ports = s.ports := rfl
@[simp] theorem deferMain_lastGranted (s : State) : (deferMain s).lastGranted = s.lastGranted := rfl

@[simp] theorem setManualDeferrals_pending (s : State) (n : Nat) :
    (setManualDeferrals n s).pending = s.pending := rfl
@[simp] theorem setManualDeferrals_resetLow (s : State) (n : Nat) :
    (setManualDeferrals n s).resetLow = s.resetLow := rfl
@[simp] theorem setManualDeferrals_rtg (s : State) (n : Nat) :
    (setManualDeferrals n s).rtg = s.rtg := rfl
@[simp] theorem setManualDeferrals_bi (s : State) (n : Nat) :
    (setManualDeferrals n s).bi = s.bi := rfl
@[simp] theorem setManualDeferrals_xl (s : State) (n : Nat) :
    (setManualDeferrals n s).xl = s.xl := rfl
@[simp] theorem setManualDeferrals_mes (s : State) (n : Nat) :
    (setManualDeferrals n s).mes = s.mes := rfl
@[simp] theorem setManualDeferrals_tc (s : State) (n : Nat) :
    (setManualDeferrals n s).tc = { s.tc with manualDeferrals := n } := rfl
@[simp] theorem setManualDeferrals_lu (s : State) (n : Nat) :
    (setManualDeferrals n s).lu = s.lu := rfl
@[simp] theorem setManualDeferrals_wg (s : State) (n : Nat) :
    (setManualDeferrals n s).wg = s.wg := rfl
@[simp] theorem setManualDeferrals_cmp (s : State) (n : Nat) :
    (setManualDeferrals n s).cmp = s.cmp := rfl
@[simp] theorem setManualDeferrals_tu (s : State) (n : Nat) :
    (setManualDeferrals n s).tu = s.tu := rfl
@[simp] theorem setManualDeferrals_cq (s : State) (n : Nat) :
    (setManualDeferrals n s).cq = s.cq := rfl
@[simp] theorem setManualDeferrals_ss (s : State) (n : Nat) :
    (setManualDeferrals n s).ss = s.ss := rfl
@[simp] theorem setManualDeferrals_ports (s : State) (n : Nat) :
    (setManualDeferrals n s).ports = s.ports := rfl
@[simp] theorem setManualDeferrals_lastGranted (s : State) (n : Nat) :
    (setManualDeferrals n s).lastGranted = s.lastGranted := rfl

@[simp] theorem setLever_pending (s : State) (p : Port) (l : Lever) :
    (s.setLever p l).pending = s.pending := rfl
@[simp] theorem setLever_resetLow (s : State) (p : Port) (l : Lever) :
    (s.setLever p l).resetLow = s.resetLow := rfl
@[simp] theorem setLever_rtg (s : State) (p : Port) (l : Lever) :
    (s.setLever p l).rtg = s.rtg := rfl
@[simp] theorem setLever_bi (s : State) (p : Port) (l : Lever) : (s.setLever p l).bi = s.bi := rfl
@[simp] theorem setLever_xl (s : State) (p : Port) (l : Lever) : (s.setLever p l).xl = s.xl := rfl
@[simp] theorem setLever_mes (s : State) (p : Port) (l : Lever) :
    (s.setLever p l).mes = s.mes := rfl
@[simp] theorem setLever_tc (s : State) (p : Port) (l : Lever) : (s.setLever p l).tc = s.tc := rfl
@[simp] theorem setLever_lu (s : State) (p : Port) (l : Lever) :
    (s.setLever p l).lu = { s.lu with levers := s.lu.levers.set p l } := rfl
@[simp] theorem setLever_wg (s : State) (p : Port) (l : Lever) : (s.setLever p l).wg = s.wg := rfl
@[simp] theorem setLever_cmp (s : State) (p : Port) (l : Lever) :
    (s.setLever p l).cmp = s.cmp := rfl
@[simp] theorem setLever_tu (s : State) (p : Port) (l : Lever) : (s.setLever p l).tu = s.tu := rfl
@[simp] theorem setLever_cq (s : State) (p : Port) (l : Lever) : (s.setLever p l).cq = s.cq := rfl
@[simp] theorem setLever_ss (s : State) (p : Port) (l : Lever) : (s.setLever p l).ss = s.ss := rfl
@[simp] theorem setLever_ports (s : State) (p : Port) (l : Lever) :
    (s.setLever p l).ports = s.ports := rfl
@[simp] theorem setLever_lastGranted (s : State) (p : Port) (l : Lever) :
    (s.setLever p l).lastGranted = s.lastGranted := rfl

@[simp] theorem holdLever_pending (s : State) (p : Port) :
    (holdLever p s).pending = s.pending := rfl
@[simp] theorem holdLever_resetLow (s : State) (p : Port) :
    (holdLever p s).resetLow = s.resetLow := rfl
@[simp] theorem holdLever_rtg (s : State) (p : Port) : (holdLever p s).rtg = s.rtg := rfl
@[simp] theorem holdLever_bi (s : State) (p : Port) : (holdLever p s).bi = s.bi := rfl
@[simp] theorem holdLever_xl (s : State) (p : Port) : (holdLever p s).xl = s.xl := rfl
@[simp] theorem holdLever_mes (s : State) (p : Port) : (holdLever p s).mes = s.mes := rfl
@[simp] theorem holdLever_tc (s : State) (p : Port) : (holdLever p s).tc = s.tc := rfl
@[simp] theorem holdLever_lu (s : State) (p : Port) :
    (holdLever p s).lu = { s.lu with holder := some p, quiet := 0 } := rfl
@[simp] theorem holdLever_wg (s : State) (p : Port) : (holdLever p s).wg = s.wg := rfl
@[simp] theorem holdLever_cmp (s : State) (p : Port) : (holdLever p s).cmp = s.cmp := rfl
@[simp] theorem holdLever_tu (s : State) (p : Port) : (holdLever p s).tu = s.tu := rfl
@[simp] theorem holdLever_cq (s : State) (p : Port) : (holdLever p s).cq = s.cq := rfl
@[simp] theorem holdLever_ss (s : State) (p : Port) : (holdLever p s).ss = s.ss := rfl
@[simp] theorem holdLever_ports (s : State) (p : Port) : (holdLever p s).ports = s.ports := rfl
@[simp] theorem holdLever_lastGranted (s : State) (p : Port) :
    (holdLever p s).lastGranted = s.lastGranted := rfl

@[simp] theorem clearQuiet_pending (s : State) : (clearQuiet s).pending = s.pending := rfl
@[simp] theorem clearQuiet_resetLow (s : State) : (clearQuiet s).resetLow = s.resetLow := rfl
@[simp] theorem clearQuiet_rtg (s : State) : (clearQuiet s).rtg = s.rtg := rfl
@[simp] theorem clearQuiet_bi (s : State) : (clearQuiet s).bi = s.bi := rfl
@[simp] theorem clearQuiet_xl (s : State) : (clearQuiet s).xl = s.xl := rfl
@[simp] theorem clearQuiet_mes (s : State) : (clearQuiet s).mes = s.mes := rfl
@[simp] theorem clearQuiet_tc (s : State) : (clearQuiet s).tc = s.tc := rfl
@[simp] theorem clearQuiet_lu (s : State) : (clearQuiet s).lu = { s.lu with quiet := 0 } := rfl
@[simp] theorem clearQuiet_wg (s : State) : (clearQuiet s).wg = s.wg := rfl
@[simp] theorem clearQuiet_cmp (s : State) : (clearQuiet s).cmp = s.cmp := rfl
@[simp] theorem clearQuiet_tu (s : State) : (clearQuiet s).tu = s.tu := rfl
@[simp] theorem clearQuiet_cq (s : State) : (clearQuiet s).cq = s.cq := rfl
@[simp] theorem clearQuiet_ss (s : State) : (clearQuiet s).ss = s.ss := rfl
@[simp] theorem clearQuiet_ports (s : State) : (clearQuiet s).ports = s.ports := rfl
@[simp] theorem clearQuiet_lastGranted (s : State) :
    (clearQuiet s).lastGranted = s.lastGranted := rfl

@[simp] theorem releaseHold_pending (s : State) : (releaseHold s).pending = s.pending := rfl
@[simp] theorem releaseHold_resetLow (s : State) : (releaseHold s).resetLow = s.resetLow := rfl
@[simp] theorem releaseHold_rtg (s : State) : (releaseHold s).rtg = s.rtg := rfl
@[simp] theorem releaseHold_bi (s : State) : (releaseHold s).bi = s.bi := rfl
@[simp] theorem releaseHold_xl (s : State) : (releaseHold s).xl = s.xl := rfl
@[simp] theorem releaseHold_mes (s : State) : (releaseHold s).mes = s.mes := rfl
@[simp] theorem releaseHold_tc (s : State) :
    (releaseHold s).tc = { s.tc with manualDeferrals := 0 } := rfl
@[simp] theorem releaseHold_lu (s : State) :
    (releaseHold s).lu = { s.lu with holder := none, quiet := 0 } := rfl
@[simp] theorem releaseHold_wg (s : State) : (releaseHold s).wg = s.wg := rfl
@[simp] theorem releaseHold_cmp (s : State) : (releaseHold s).cmp = s.cmp := rfl
@[simp] theorem releaseHold_tu (s : State) : (releaseHold s).tu = s.tu := rfl
@[simp] theorem releaseHold_cq (s : State) : (releaseHold s).cq = s.cq := rfl
@[simp] theorem releaseHold_ss (s : State) : (releaseHold s).ss = s.ss := rfl
@[simp] theorem releaseHold_ports (s : State) : (releaseHold s).ports = s.ports := rfl
@[simp] theorem releaseHold_lastGranted (s : State) :
    (releaseHold s).lastGranted = s.lastGranted := rfl

@[simp] theorem clearPickups_pending (s : State) (pick : Port → Bool) :
    (clearPickups pick s).pending = s.pending := rfl
@[simp] theorem clearPickups_resetLow (s : State) (pick : Port → Bool) :
    (clearPickups pick s).resetLow = s.resetLow := rfl
@[simp] theorem clearPickups_rtg (s : State) (pick : Port → Bool) :
    (clearPickups pick s).rtg = s.rtg := rfl
@[simp] theorem clearPickups_bi (s : State) (pick : Port → Bool) :
    (clearPickups pick s).bi = s.bi := rfl
@[simp] theorem clearPickups_xl (s : State) (pick : Port → Bool) :
    (clearPickups pick s).xl = s.xl := rfl
@[simp] theorem clearPickups_mes (s : State) (pick : Port → Bool) :
    (clearPickups pick s).mes = s.mes := rfl
@[simp] theorem clearPickups_tc (s : State) (pick : Port → Bool) :
    (clearPickups pick s).tc = s.tc := rfl
@[simp] theorem clearPickups_wg (s : State) (pick : Port → Bool) :
    (clearPickups pick s).wg = s.wg := rfl
@[simp] theorem clearPickups_cmp (s : State) (pick : Port → Bool) :
    (clearPickups pick s).cmp = s.cmp := rfl
@[simp] theorem clearPickups_tu (s : State) (pick : Port → Bool) :
    (clearPickups pick s).tu = s.tu := rfl
@[simp] theorem clearPickups_cq (s : State) (pick : Port → Bool) :
    (clearPickups pick s).cq = s.cq := rfl
@[simp] theorem clearPickups_ss (s : State) (pick : Port → Bool) :
    (clearPickups pick s).ss = s.ss := rfl
@[simp] theorem clearPickups_ports (s : State) (pick : Port → Bool) :
    (clearPickups pick s).ports = s.ports := rfl
@[simp] theorem clearPickups_lastGranted (s : State) (pick : Port → Bool) :
    (clearPickups pick s).lastGranted = s.lastGranted := rfl

@[simp] theorem setChanges_pending (s : State) (p : Port) (c : ChangeList) :
    (setChanges p c s).pending = s.pending := rfl
@[simp] theorem setChanges_resetLow (s : State) (p : Port) (c : ChangeList) :
    (setChanges p c s).resetLow = s.resetLow := rfl
@[simp] theorem setChanges_rtg (s : State) (p : Port) (c : ChangeList) :
    (setChanges p c s).rtg = s.rtg := rfl
@[simp] theorem setChanges_bi (s : State) (p : Port) (c : ChangeList) :
    (setChanges p c s).bi = s.bi := rfl
@[simp] theorem setChanges_xl (s : State) (p : Port) (c : ChangeList) :
    (setChanges p c s).xl = s.xl := rfl
@[simp] theorem setChanges_mes (s : State) (p : Port) (c : ChangeList) :
    (setChanges p c s).mes = s.mes := rfl
@[simp] theorem setChanges_tc (s : State) (p : Port) (c : ChangeList) :
    (setChanges p c s).tc = s.tc := rfl
@[simp] theorem setChanges_lu (s : State) (p : Port) (c : ChangeList) :
    (setChanges p c s).lu = s.lu := rfl
@[simp] theorem setChanges_wg (s : State) (p : Port) (c : ChangeList) :
    (setChanges p c s).wg = s.wg := rfl
@[simp] theorem setChanges_cmp (s : State) (p : Port) (c : ChangeList) :
    (setChanges p c s).cmp = s.cmp := rfl
@[simp] theorem setChanges_tu (s : State) (p : Port) (c : ChangeList) :
    (setChanges p c s).tu = { s.tu with changes := s.tu.changes.set p c } := rfl
@[simp] theorem setChanges_cq (s : State) (p : Port) (c : ChangeList) :
    (setChanges p c s).cq = s.cq := rfl
@[simp] theorem setChanges_ss (s : State) (p : Port) (c : ChangeList) :
    (setChanges p c s).ss = s.ss := rfl
@[simp] theorem setChanges_ports (s : State) (p : Port) (c : ChangeList) :
    (setChanges p c s).ports = s.ports := rfl
@[simp] theorem setChanges_lastGranted (s : State) (p : Port) (c : ChangeList) :
    (setChanges p c s).lastGranted = s.lastGranted := rfl

@[simp] theorem setEntries_pending (s : State) (es : List CueEntry) :
    (setEntries es s).pending = s.pending := rfl
@[simp] theorem setEntries_resetLow (s : State) (es : List CueEntry) :
    (setEntries es s).resetLow = s.resetLow := rfl
@[simp] theorem setEntries_rtg (s : State) (es : List CueEntry) :
    (setEntries es s).rtg = s.rtg := rfl
@[simp] theorem setEntries_bi (s : State) (es : List CueEntry) : (setEntries es s).bi = s.bi := rfl
@[simp] theorem setEntries_xl (s : State) (es : List CueEntry) : (setEntries es s).xl = s.xl := rfl
@[simp] theorem setEntries_mes (s : State) (es : List CueEntry) :
    (setEntries es s).mes = s.mes := rfl
@[simp] theorem setEntries_tc (s : State) (es : List CueEntry) : (setEntries es s).tc = s.tc := rfl
@[simp] theorem setEntries_lu (s : State) (es : List CueEntry) : (setEntries es s).lu = s.lu := rfl
@[simp] theorem setEntries_wg (s : State) (es : List CueEntry) : (setEntries es s).wg = s.wg := rfl
@[simp] theorem setEntries_cmp (s : State) (es : List CueEntry) :
    (setEntries es s).cmp = s.cmp := rfl
@[simp] theorem setEntries_tu (s : State) (es : List CueEntry) : (setEntries es s).tu = s.tu := rfl
@[simp] theorem setEntries_cq (s : State) (es : List CueEntry) :
    (setEntries es s).cq = { s.cq with entries := es } := rfl
@[simp] theorem setEntries_ss (s : State) (es : List CueEntry) : (setEntries es s).ss = s.ss := rfl
@[simp] theorem setEntries_ports (s : State) (es : List CueEntry) :
    (setEntries es s).ports = s.ports := rfl
@[simp] theorem setEntries_lastGranted (s : State) (es : List CueEntry) :
    (setEntries es s).lastGranted = s.lastGranted := rfl

@[simp] theorem setCounter_pending (s : State) (v : Word) :
    (setCounter v s).pending = s.pending := rfl
@[simp] theorem setCounter_resetLow (s : State) (v : Word) :
    (setCounter v s).resetLow = s.resetLow := rfl
@[simp] theorem setCounter_rtg (s : State) (v : Word) :
    (setCounter v s).rtg = { s.rtg with counter := v } := rfl
@[simp] theorem setCounter_bi (s : State) (v : Word) : (setCounter v s).bi = s.bi := rfl
@[simp] theorem setCounter_xl (s : State) (v : Word) : (setCounter v s).xl = s.xl := rfl
@[simp] theorem setCounter_mes (s : State) (v : Word) : (setCounter v s).mes = s.mes := rfl
@[simp] theorem setCounter_tc (s : State) (v : Word) : (setCounter v s).tc = s.tc := rfl
@[simp] theorem setCounter_lu (s : State) (v : Word) : (setCounter v s).lu = s.lu := rfl
@[simp] theorem setCounter_wg (s : State) (v : Word) : (setCounter v s).wg = s.wg := rfl
@[simp] theorem setCounter_cmp (s : State) (v : Word) : (setCounter v s).cmp = s.cmp := rfl
@[simp] theorem setCounter_tu (s : State) (v : Word) : (setCounter v s).tu = s.tu := rfl
@[simp] theorem setCounter_cq (s : State) (v : Word) : (setCounter v s).cq = s.cq := rfl
@[simp] theorem setCounter_ss (s : State) (v : Word) : (setCounter v s).ss = s.ss := rfl
@[simp] theorem setCounter_ports (s : State) (v : Word) : (setCounter v s).ports = s.ports := rfl
@[simp] theorem setCounter_lastGranted (s : State) (v : Word) :
    (setCounter v s).lastGranted = s.lastGranted := rfl

@[simp] theorem setPendingTiming_pending (s : State) (ts : Option TimingPair) :
    (setPendingTiming ts s).pending = s.pending := rfl
@[simp] theorem setPendingTiming_resetLow (s : State) (ts : Option TimingPair) :
    (setPendingTiming ts s).resetLow = s.resetLow := rfl
@[simp] theorem setPendingTiming_rtg (s : State) (ts : Option TimingPair) :
    (setPendingTiming ts s).rtg = { s.rtg with pendingSetup := ts } := rfl
@[simp] theorem setPendingTiming_bi (s : State) (ts : Option TimingPair) :
    (setPendingTiming ts s).bi = s.bi := rfl
@[simp] theorem setPendingTiming_xl (s : State) (ts : Option TimingPair) :
    (setPendingTiming ts s).xl = s.xl := rfl
@[simp] theorem setPendingTiming_mes (s : State) (ts : Option TimingPair) :
    (setPendingTiming ts s).mes = s.mes := rfl
@[simp] theorem setPendingTiming_tc (s : State) (ts : Option TimingPair) :
    (setPendingTiming ts s).tc = s.tc := rfl
@[simp] theorem setPendingTiming_lu (s : State) (ts : Option TimingPair) :
    (setPendingTiming ts s).lu = s.lu := rfl
@[simp] theorem setPendingTiming_wg (s : State) (ts : Option TimingPair) :
    (setPendingTiming ts s).wg = s.wg := rfl
@[simp] theorem setPendingTiming_cmp (s : State) (ts : Option TimingPair) :
    (setPendingTiming ts s).cmp = s.cmp := rfl
@[simp] theorem setPendingTiming_tu (s : State) (ts : Option TimingPair) :
    (setPendingTiming ts s).tu = s.tu := rfl
@[simp] theorem setPendingTiming_cq (s : State) (ts : Option TimingPair) :
    (setPendingTiming ts s).cq = s.cq := rfl
@[simp] theorem setPendingTiming_ss (s : State) (ts : Option TimingPair) :
    (setPendingTiming ts s).ss = s.ss := rfl
@[simp] theorem setPendingTiming_ports (s : State) (ts : Option TimingPair) :
    (setPendingTiming ts s).ports = s.ports := rfl
@[simp] theorem setPendingTiming_lastGranted (s : State) (ts : Option TimingPair) :
    (setPendingTiming ts s).lastGranted = s.lastGranted := rfl

@[simp] theorem setSlot_pending (s : State) (n : Slot) (sc : Option Scene) :
    (setSlot n sc s).pending = s.pending := rfl
@[simp] theorem setSlot_resetLow (s : State) (n : Slot) (sc : Option Scene) :
    (setSlot n sc s).resetLow = s.resetLow := rfl
@[simp] theorem setSlot_rtg (s : State) (n : Slot) (sc : Option Scene) :
    (setSlot n sc s).rtg = s.rtg := rfl
@[simp] theorem setSlot_bi (s : State) (n : Slot) (sc : Option Scene) :
    (setSlot n sc s).bi = s.bi := rfl
@[simp] theorem setSlot_xl (s : State) (n : Slot) (sc : Option Scene) :
    (setSlot n sc s).xl = s.xl := rfl
@[simp] theorem setSlot_mes (s : State) (n : Slot) (sc : Option Scene) :
    (setSlot n sc s).mes = s.mes := rfl
@[simp] theorem setSlot_tc (s : State) (n : Slot) (sc : Option Scene) :
    (setSlot n sc s).tc = s.tc := rfl
@[simp] theorem setSlot_lu (s : State) (n : Slot) (sc : Option Scene) :
    (setSlot n sc s).lu = s.lu := rfl
@[simp] theorem setSlot_wg (s : State) (n : Slot) (sc : Option Scene) :
    (setSlot n sc s).wg = s.wg := rfl
@[simp] theorem setSlot_cmp (s : State) (n : Slot) (sc : Option Scene) :
    (setSlot n sc s).cmp = s.cmp := rfl
@[simp] theorem setSlot_tu (s : State) (n : Slot) (sc : Option Scene) :
    (setSlot n sc s).tu = s.tu := rfl
@[simp] theorem setSlot_cq (s : State) (n : Slot) (sc : Option Scene) :
    (setSlot n sc s).cq = s.cq := rfl
@[simp] theorem setSlot_ss (s : State) (n : Slot) (sc : Option Scene) :
    (setSlot n sc s).ss = { s.ss with slots := s.ss.slots.set n sc } := rfl
@[simp] theorem setSlot_ports (s : State) (n : Slot) (sc : Option Scene) :
    (setSlot n sc s).ports = s.ports := rfl
@[simp] theorem setSlot_lastGranted (s : State) (n : Slot) (sc : Option Scene) :
    (setSlot n sc s).lastGranted = s.lastGranted := rfl

@[simp] theorem cuesPortReset_pending (s : State) (p : Port) :
    (cuesPortReset p s).pending = s.pending := rfl
@[simp] theorem cuesPortReset_resetLow (s : State) (p : Port) :
    (cuesPortReset p s).resetLow = s.resetLow := rfl
@[simp] theorem cuesPortReset_rtg (s : State) (p : Port) : (cuesPortReset p s).rtg = s.rtg := rfl
@[simp] theorem cuesPortReset_bi (s : State) (p : Port) : (cuesPortReset p s).bi = s.bi := rfl
@[simp] theorem cuesPortReset_xl (s : State) (p : Port) : (cuesPortReset p s).xl = s.xl := rfl
@[simp] theorem cuesPortReset_mes (s : State) (p : Port) : (cuesPortReset p s).mes = s.mes := rfl
@[simp] theorem cuesPortReset_tc (s : State) (p : Port) : (cuesPortReset p s).tc = s.tc := rfl
@[simp] theorem cuesPortReset_lu (s : State) (p : Port) : (cuesPortReset p s).lu = s.lu := rfl
@[simp] theorem cuesPortReset_wg (s : State) (p : Port) : (cuesPortReset p s).wg = s.wg := rfl
@[simp] theorem cuesPortReset_cmp (s : State) (p : Port) : (cuesPortReset p s).cmp = s.cmp := rfl
@[simp] theorem cuesPortReset_tu (s : State) (p : Port) : (cuesPortReset p s).tu = s.tu := rfl
@[simp] theorem cuesPortReset_cq (s : State) (p : Port) :
    (cuesPortReset p s).cq = { s.cq with entries := s.cq.entries.filter fun e => e.owner != p, failures := s.cq.failures.set p none } := rfl
@[simp] theorem cuesPortReset_ss (s : State) (p : Port) : (cuesPortReset p s).ss = s.ss := rfl
@[simp] theorem cuesPortReset_ports (s : State) (p : Port) :
    (cuesPortReset p s).ports = s.ports := rfl
@[simp] theorem cuesPortReset_lastGranted (s : State) (p : Port) :
    (cuesPortReset p s).lastGranted = s.lastGranted := rfl

@[simp] theorem raiseEach_get (s : State) (n : Notice) (pick : Port → Bool) (p : Port) :
    (raiseEach n pick s).ports.get p = if pick p then
      { s.ports.get p with flags := setFlag (s.ports.get p).flags n } else s.ports.get p := by
  simp [raiseEach]

/-! ### Fields that the conditional updates leave alone -/

@[simp] theorem raiseAllWhen_pending (s : State) (c : Bool) (n : Notice) : (raiseAllWhen c n s).pending = s.pending := by
  unfold raiseAllWhen; split <;> rfl
@[simp] theorem raiseAllWhen_resetLow (s : State) (c : Bool) (n : Notice) : (raiseAllWhen c n s).resetLow = s.resetLow := by
  unfold raiseAllWhen; split <;> rfl
@[simp] theorem raiseAllWhen_rtg (s : State) (c : Bool) (n : Notice) : (raiseAllWhen c n s).rtg = s.rtg := by
  unfold raiseAllWhen; split <;> rfl
@[simp] theorem raiseAllWhen_bi (s : State) (c : Bool) (n : Notice) : (raiseAllWhen c n s).bi = s.bi := by
  unfold raiseAllWhen; split <;> rfl
@[simp] theorem raiseAllWhen_xl (s : State) (c : Bool) (n : Notice) : (raiseAllWhen c n s).xl = s.xl := by
  unfold raiseAllWhen; split <;> rfl
@[simp] theorem raiseAllWhen_mes (s : State) (c : Bool) (n : Notice) : (raiseAllWhen c n s).mes = s.mes := by
  unfold raiseAllWhen; split <;> rfl
@[simp] theorem raiseAllWhen_tc (s : State) (c : Bool) (n : Notice) : (raiseAllWhen c n s).tc = s.tc := by
  unfold raiseAllWhen; split <;> rfl
@[simp] theorem raiseAllWhen_lu (s : State) (c : Bool) (n : Notice) : (raiseAllWhen c n s).lu = s.lu := by
  unfold raiseAllWhen; split <;> rfl
@[simp] theorem raiseAllWhen_wg (s : State) (c : Bool) (n : Notice) : (raiseAllWhen c n s).wg = s.wg := by
  unfold raiseAllWhen; split <;> rfl
@[simp] theorem raiseAllWhen_cmp (s : State) (c : Bool) (n : Notice) : (raiseAllWhen c n s).cmp = s.cmp := by
  unfold raiseAllWhen; split <;> rfl
@[simp] theorem raiseAllWhen_tu (s : State) (c : Bool) (n : Notice) : (raiseAllWhen c n s).tu = s.tu := by
  unfold raiseAllWhen; split <;> rfl
@[simp] theorem raiseAllWhen_cq (s : State) (c : Bool) (n : Notice) : (raiseAllWhen c n s).cq = s.cq := by
  unfold raiseAllWhen; split <;> rfl
@[simp] theorem raiseAllWhen_ss (s : State) (c : Bool) (n : Notice) : (raiseAllWhen c n s).ss = s.ss := by
  unfold raiseAllWhen; split <;> rfl
@[simp] theorem raiseAllWhen_lastGranted (s : State) (c : Bool) (n : Notice) : (raiseAllWhen c n s).lastGranted = s.lastGranted := by
  unfold raiseAllWhen; split <;> rfl

@[simp] theorem settleAll_pending (s : State) (d : Bool) : (settleAll d s).pending = s.pending := by
  unfold settleAll; split <;> rfl
@[simp] theorem settleAll_resetLow (s : State) (d : Bool) : (settleAll d s).resetLow = s.resetLow := by
  unfold settleAll; split <;> rfl
@[simp] theorem settleAll_rtg (s : State) (d : Bool) : (settleAll d s).rtg = s.rtg := by
  unfold settleAll; split <;> rfl
@[simp] theorem settleAll_xl (s : State) (d : Bool) : (settleAll d s).xl = s.xl := by
  unfold settleAll; split <;> rfl
@[simp] theorem settleAll_mes (s : State) (d : Bool) : (settleAll d s).mes = s.mes := by
  unfold settleAll; split <;> rfl
@[simp] theorem settleAll_tc (s : State) (d : Bool) : (settleAll d s).tc = s.tc := by
  unfold settleAll; split <;> rfl
@[simp] theorem settleAll_lu (s : State) (d : Bool) : (settleAll d s).lu = s.lu := by
  unfold settleAll; split <;> rfl
@[simp] theorem settleAll_wg (s : State) (d : Bool) : (settleAll d s).wg = s.wg := by
  unfold settleAll; split <;> rfl
@[simp] theorem settleAll_cmp (s : State) (d : Bool) : (settleAll d s).cmp = s.cmp := by
  unfold settleAll; split <;> rfl
@[simp] theorem settleAll_tu (s : State) (d : Bool) : (settleAll d s).tu = s.tu := by
  unfold settleAll; split <;> rfl
@[simp] theorem settleAll_cq (s : State) (d : Bool) : (settleAll d s).cq = s.cq := by
  unfold settleAll; split <;> rfl
@[simp] theorem settleAll_ss (s : State) (d : Bool) : (settleAll d s).ss = s.ss := by
  unfold settleAll; split <;> rfl
@[simp] theorem settleAll_ports (s : State) (d : Bool) : (settleAll d s).ports = s.ports := by
  unfold settleAll; split <;> rfl
@[simp] theorem settleAll_lastGranted (s : State) (d : Bool) : (settleAll d s).lastGranted = s.lastGranted := by
  unfold settleAll; split <;> rfl

@[simp] theorem reloadDirection_pending (s : State) : (reloadDirection s).pending = s.pending := by
  unfold reloadDirection; split <;> rfl
@[simp] theorem reloadDirection_resetLow (s : State) : (reloadDirection s).resetLow = s.resetLow := by
  unfold reloadDirection; split <;> rfl
@[simp] theorem reloadDirection_rtg (s : State) : (reloadDirection s).rtg = s.rtg := by
  unfold reloadDirection; split <;> rfl
@[simp] theorem reloadDirection_bi (s : State) : (reloadDirection s).bi = s.bi := by
  unfold reloadDirection; split <;> rfl
@[simp] theorem reloadDirection_xl (s : State) : (reloadDirection s).xl = s.xl := by
  unfold reloadDirection; split <;> rfl
@[simp] theorem reloadDirection_mes (s : State) : (reloadDirection s).mes = s.mes := by
  unfold reloadDirection; split <;> rfl
@[simp] theorem reloadDirection_tc (s : State) : (reloadDirection s).tc = s.tc := by
  unfold reloadDirection; split <;> rfl
@[simp] theorem reloadDirection_lu (s : State) : (reloadDirection s).lu = s.lu := by
  unfold reloadDirection; split <;> rfl
@[simp] theorem reloadDirection_cmp (s : State) : (reloadDirection s).cmp = s.cmp := by
  unfold reloadDirection; split <;> rfl
@[simp] theorem reloadDirection_tu (s : State) : (reloadDirection s).tu = s.tu := by
  unfold reloadDirection; split <;> rfl
@[simp] theorem reloadDirection_cq (s : State) : (reloadDirection s).cq = s.cq := by
  unfold reloadDirection; split <;> rfl
@[simp] theorem reloadDirection_ss (s : State) : (reloadDirection s).ss = s.ss := by
  unfold reloadDirection; split <;> rfl
@[simp] theorem reloadDirection_ports (s : State) : (reloadDirection s).ports = s.ports := by
  unfold reloadDirection; split <;> rfl
@[simp] theorem reloadDirection_lastGranted (s : State) : (reloadDirection s).lastGranted = s.lastGranted := by
  unfold reloadDirection; split <;> rfl

@[simp] theorem issueAll_pending (s : State) (x : Bool) : (issueAll x s).pending = s.pending := by
  unfold issueAll; split <;> rfl
@[simp] theorem issueAll_resetLow (s : State) (x : Bool) : (issueAll x s).resetLow = s.resetLow := by
  unfold issueAll; split <;> rfl
@[simp] theorem issueAll_rtg (s : State) (x : Bool) : (issueAll x s).rtg = s.rtg := by
  unfold issueAll; split <;> rfl
@[simp] theorem issueAll_mes (s : State) (x : Bool) : (issueAll x s).mes = s.mes := by
  unfold issueAll; split <;> rfl
@[simp] theorem issueAll_tc (s : State) (x : Bool) : (issueAll x s).tc = s.tc := by
  unfold issueAll; split <;> rfl
@[simp] theorem issueAll_lu (s : State) (x : Bool) : (issueAll x s).lu = s.lu := by
  unfold issueAll; split <;> rfl
@[simp] theorem issueAll_wg (s : State) (x : Bool) : (issueAll x s).wg = s.wg := by
  unfold issueAll; split <;> rfl
@[simp] theorem issueAll_cmp (s : State) (x : Bool) : (issueAll x s).cmp = s.cmp := by
  unfold issueAll; split <;> rfl
@[simp] theorem issueAll_tu (s : State) (x : Bool) : (issueAll x s).tu = s.tu := by
  unfold issueAll; split <;> rfl
@[simp] theorem issueAll_cq (s : State) (x : Bool) : (issueAll x s).cq = s.cq := by
  unfold issueAll; split <;> rfl
@[simp] theorem issueAll_ss (s : State) (x : Bool) : (issueAll x s).ss = s.ss := by
  unfold issueAll; split <;> rfl
@[simp] theorem issueAll_ports (s : State) (x : Bool) : (issueAll x s).ports = s.ports := by
  unfold issueAll; split <;> rfl
@[simp] theorem issueAll_lastGranted (s : State) (x : Bool) : (issueAll x s).lastGranted = s.lastGranted := by
  unfold issueAll; split <;> rfl

@[simp] theorem clampCropsWhen_pending (s : State) (c : Bool) : (clampCropsWhen c s).pending = s.pending := by
  unfold clampCropsWhen; split <;> rfl
@[simp] theorem clampCropsWhen_resetLow (s : State) (c : Bool) : (clampCropsWhen c s).resetLow = s.resetLow := by
  unfold clampCropsWhen; split <;> rfl
@[simp] theorem clampCropsWhen_rtg (s : State) (c : Bool) : (clampCropsWhen c s).rtg = s.rtg := by
  unfold clampCropsWhen; split <;> rfl
@[simp] theorem clampCropsWhen_bi (s : State) (c : Bool) : (clampCropsWhen c s).bi = s.bi := by
  unfold clampCropsWhen; split <;> rfl
@[simp] theorem clampCropsWhen_xl (s : State) (c : Bool) : (clampCropsWhen c s).xl = s.xl := by
  unfold clampCropsWhen; split <;> rfl
@[simp] theorem clampCropsWhen_lu (s : State) (c : Bool) : (clampCropsWhen c s).lu = s.lu := by
  unfold clampCropsWhen; split <;> rfl
@[simp] theorem clampCropsWhen_wg (s : State) (c : Bool) : (clampCropsWhen c s).wg = s.wg := by
  unfold clampCropsWhen; split <;> rfl
@[simp] theorem clampCropsWhen_cmp (s : State) (c : Bool) : (clampCropsWhen c s).cmp = s.cmp := by
  unfold clampCropsWhen; split <;> rfl
@[simp] theorem clampCropsWhen_tu (s : State) (c : Bool) : (clampCropsWhen c s).tu = s.tu := by
  unfold clampCropsWhen; split <;> rfl
@[simp] theorem clampCropsWhen_cq (s : State) (c : Bool) : (clampCropsWhen c s).cq = s.cq := by
  unfold clampCropsWhen; split <;> rfl
@[simp] theorem clampCropsWhen_ss (s : State) (c : Bool) : (clampCropsWhen c s).ss = s.ss := by
  unfold clampCropsWhen; split <;> rfl
@[simp] theorem clampCropsWhen_ports (s : State) (c : Bool) : (clampCropsWhen c s).ports = s.ports := by
  unfold clampCropsWhen; split <;> rfl
@[simp] theorem clampCropsWhen_lastGranted (s : State) (c : Bool) : (clampCropsWhen c s).lastGranted = s.lastGranted := by
  unfold clampCropsWhen; split <;> rfl

@[simp] theorem releaseHoldUnless_pending (s : State) (e : Port → Bool) : (releaseHoldUnless e s).pending = s.pending := by
  unfold releaseHoldUnless; split
  · rfl
  · split <;> rfl
@[simp] theorem releaseHoldUnless_resetLow (s : State) (e : Port → Bool) : (releaseHoldUnless e s).resetLow = s.resetLow := by
  unfold releaseHoldUnless; split
  · rfl
  · split <;> rfl
@[simp] theorem releaseHoldUnless_rtg (s : State) (e : Port → Bool) : (releaseHoldUnless e s).rtg = s.rtg := by
  unfold releaseHoldUnless; split
  · rfl
  · split <;> rfl
@[simp] theorem releaseHoldUnless_bi (s : State) (e : Port → Bool) : (releaseHoldUnless e s).bi = s.bi := by
  unfold releaseHoldUnless; split
  · rfl
  · split <;> rfl
@[simp] theorem releaseHoldUnless_xl (s : State) (e : Port → Bool) : (releaseHoldUnless e s).xl = s.xl := by
  unfold releaseHoldUnless; split
  · rfl
  · split <;> rfl
@[simp] theorem releaseHoldUnless_mes (s : State) (e : Port → Bool) : (releaseHoldUnless e s).mes = s.mes := by
  unfold releaseHoldUnless; split
  · rfl
  · split <;> rfl
@[simp] theorem releaseHoldUnless_wg (s : State) (e : Port → Bool) : (releaseHoldUnless e s).wg = s.wg := by
  unfold releaseHoldUnless; split
  · rfl
  · split <;> rfl
@[simp] theorem releaseHoldUnless_cmp (s : State) (e : Port → Bool) : (releaseHoldUnless e s).cmp = s.cmp := by
  unfold releaseHoldUnless; split
  · rfl
  · split <;> rfl
@[simp] theorem releaseHoldUnless_tu (s : State) (e : Port → Bool) : (releaseHoldUnless e s).tu = s.tu := by
  unfold releaseHoldUnless; split
  · rfl
  · split <;> rfl
@[simp] theorem releaseHoldUnless_cq (s : State) (e : Port → Bool) : (releaseHoldUnless e s).cq = s.cq := by
  unfold releaseHoldUnless; split
  · rfl
  · split <;> rfl
@[simp] theorem releaseHoldUnless_ss (s : State) (e : Port → Bool) : (releaseHoldUnless e s).ss = s.ss := by
  unfold releaseHoldUnless; split
  · rfl
  · split <;> rfl
@[simp] theorem releaseHoldUnless_lastGranted (s : State) (e : Port → Bool) : (releaseHoldUnless e s).lastGranted = s.lastGranted := by
  unfold releaseHoldUnless; split
  · rfl
  · split <;> rfl

@[simp] theorem leaveManual_pending (s : State) : (leaveManual s).pending = s.pending := by
  unfold leaveManual; split <;> rfl
@[simp] theorem leaveManual_resetLow (s : State) : (leaveManual s).resetLow = s.resetLow := by
  unfold leaveManual; split <;> rfl
@[simp] theorem leaveManual_rtg (s : State) : (leaveManual s).rtg = s.rtg := by
  unfold leaveManual; split <;> rfl
@[simp] theorem leaveManual_bi (s : State) : (leaveManual s).bi = s.bi := by
  unfold leaveManual; split <;> rfl
@[simp] theorem leaveManual_xl (s : State) : (leaveManual s).xl = s.xl := by
  unfold leaveManual; split <;> rfl
@[simp] theorem leaveManual_mes (s : State) : (leaveManual s).mes = s.mes := by
  unfold leaveManual; split <;> rfl
@[simp] theorem leaveManual_tc (s : State) : (leaveManual s).tc = s.tc := by
  unfold leaveManual; split <;> rfl
@[simp] theorem leaveManual_wg (s : State) : (leaveManual s).wg = s.wg := by
  unfold leaveManual; split <;> rfl
@[simp] theorem leaveManual_cmp (s : State) : (leaveManual s).cmp = s.cmp := by
  unfold leaveManual; split <;> rfl
@[simp] theorem leaveManual_tu (s : State) : (leaveManual s).tu = s.tu := by
  unfold leaveManual; split <;> rfl
@[simp] theorem leaveManual_cq (s : State) : (leaveManual s).cq = s.cq := by
  unfold leaveManual; split <;> rfl
@[simp] theorem leaveManual_ss (s : State) : (leaveManual s).ss = s.ss := by
  unfold leaveManual; split <;> rfl
@[simp] theorem leaveManual_lastGranted (s : State) : (leaveManual s).lastGranted = s.lastGranted := by
  unfold leaveManual; split <;> rfl

@[simp] theorem toIdle_pending (s : State) : (toIdle s).pending = s.pending := by simp [toIdle]
@[simp] theorem toIdle_resetLow (s : State) : (toIdle s).resetLow = s.resetLow := by simp [toIdle]
@[simp] theorem toIdle_rtg (s : State) : (toIdle s).rtg = s.rtg := by simp [toIdle]
@[simp] theorem toIdle_bi (s : State) : (toIdle s).bi = s.bi := by simp [toIdle]
@[simp] theorem toIdle_xl (s : State) : (toIdle s).xl = s.xl := by simp [toIdle]
@[simp] theorem toIdle_mes (s : State) : (toIdle s).mes = s.mes := by simp [toIdle]
@[simp] theorem toIdle_wg (s : State) : (toIdle s).wg = s.wg := by simp [toIdle]
@[simp] theorem toIdle_cmp (s : State) : (toIdle s).cmp = s.cmp := by simp [toIdle]
@[simp] theorem toIdle_tu (s : State) : (toIdle s).tu = s.tu := by simp [toIdle]
@[simp] theorem toIdle_cq (s : State) : (toIdle s).cq = s.cq := by simp [toIdle]
@[simp] theorem toIdle_ss (s : State) : (toIdle s).ss = s.ss := by simp [toIdle]
@[simp] theorem toIdle_lastGranted (s : State) : (toIdle s).lastGranted = s.lastGranted := by simp [toIdle]

@[simp] theorem flipHome_pending (s : State) : (flipHome s).pending = s.pending := by
  unfold flipHome; split <;> rfl
@[simp] theorem flipHome_resetLow (s : State) : (flipHome s).resetLow = s.resetLow := by
  unfold flipHome; split <;> rfl
@[simp] theorem flipHome_rtg (s : State) : (flipHome s).rtg = s.rtg := by
  unfold flipHome; split <;> rfl
@[simp] theorem flipHome_bi (s : State) : (flipHome s).bi = s.bi := by
  unfold flipHome; split <;> rfl
@[simp] theorem flipHome_xl (s : State) : (flipHome s).xl = s.xl := by
  unfold flipHome; split <;> rfl
@[simp] theorem flipHome_mes (s : State) : (flipHome s).mes = s.mes := by
  unfold flipHome; split <;> rfl
@[simp] theorem flipHome_tc (s : State) : (flipHome s).tc = s.tc := by
  unfold flipHome; split <;> rfl
@[simp] theorem flipHome_wg (s : State) : (flipHome s).wg = s.wg := by
  unfold flipHome; split <;> rfl
@[simp] theorem flipHome_cmp (s : State) : (flipHome s).cmp = s.cmp := by
  unfold flipHome; split <;> rfl
@[simp] theorem flipHome_tu (s : State) : (flipHome s).tu = s.tu := by
  unfold flipHome; split <;> rfl
@[simp] theorem flipHome_cq (s : State) : (flipHome s).cq = s.cq := by
  unfold flipHome; split <;> rfl
@[simp] theorem flipHome_ss (s : State) : (flipHome s).ss = s.ss := by
  unfold flipHome; split <;> rfl
@[simp] theorem flipHome_ports (s : State) : (flipHome s).ports = s.ports := by
  unfold flipHome; split <;> rfl
@[simp] theorem flipHome_lastGranted (s : State) : (flipHome s).lastGranted = s.lastGranted := by
  unfold flipHome; split <;> rfl

@[simp] theorem quietStep_pending (s : State) : (quietStep s).pending = s.pending := by
  unfold quietStep; split
  · rfl
  · split <;> simp
@[simp] theorem quietStep_resetLow (s : State) : (quietStep s).resetLow = s.resetLow := by
  unfold quietStep; split
  · rfl
  · split <;> simp
@[simp] theorem quietStep_rtg (s : State) : (quietStep s).rtg = s.rtg := by
  unfold quietStep; split
  · rfl
  · split <;> simp
@[simp] theorem quietStep_bi (s : State) : (quietStep s).bi = s.bi := by
  unfold quietStep; split
  · rfl
  · split <;> simp
@[simp] theorem quietStep_xl (s : State) : (quietStep s).xl = s.xl := by
  unfold quietStep; split
  · rfl
  · split <;> simp
@[simp] theorem quietStep_mes (s : State) : (quietStep s).mes = s.mes := by
  unfold quietStep; split
  · rfl
  · split <;> simp
@[simp] theorem quietStep_wg (s : State) : (quietStep s).wg = s.wg := by
  unfold quietStep; split
  · rfl
  · split <;> simp
@[simp] theorem quietStep_cmp (s : State) : (quietStep s).cmp = s.cmp := by
  unfold quietStep; split
  · rfl
  · split <;> simp
@[simp] theorem quietStep_tu (s : State) : (quietStep s).tu = s.tu := by
  unfold quietStep; split
  · rfl
  · split <;> simp
@[simp] theorem quietStep_cq (s : State) : (quietStep s).cq = s.cq := by
  unfold quietStep; split
  · rfl
  · split <;> simp
@[simp] theorem quietStep_ss (s : State) : (quietStep s).ss = s.ss := by
  unfold quietStep; split
  · rfl
  · split <;> simp
@[simp] theorem quietStep_lastGranted (s : State) : (quietStep s).lastGranted = s.lastGranted := by
  unfold quietStep; split
  · rfl
  · split <;> simp

@[simp] theorem applyEngineReset_pending (s : State) : (applyEngineReset s).pending = s.pending := by
  unfold applyEngineReset; split <;> simp
@[simp] theorem applyEngineReset_resetLow (s : State) : (applyEngineReset s).resetLow = s.resetLow := by
  unfold applyEngineReset; split <;> simp
@[simp] theorem applyEngineReset_rtg (s : State) : (applyEngineReset s).rtg = s.rtg := by
  unfold applyEngineReset; split <;> simp
@[simp] theorem applyEngineReset_bi (s : State) : (applyEngineReset s).bi = s.bi := by
  unfold applyEngineReset; split <;> simp
@[simp] theorem applyEngineReset_xl (s : State) : (applyEngineReset s).xl = s.xl := by
  unfold applyEngineReset; split <;> simp
@[simp] theorem applyEngineReset_mes (s : State) : (applyEngineReset s).mes = s.mes := by
  unfold applyEngineReset; split <;> simp
@[simp] theorem applyEngineReset_wg (s : State) : (applyEngineReset s).wg = s.wg := by
  unfold applyEngineReset; split <;> simp
@[simp] theorem applyEngineReset_cmp (s : State) : (applyEngineReset s).cmp = s.cmp := by
  unfold applyEngineReset; split <;> simp
@[simp] theorem applyEngineReset_tu (s : State) : (applyEngineReset s).tu = s.tu := by
  unfold applyEngineReset; split <;> simp
@[simp] theorem applyEngineReset_cq (s : State) : (applyEngineReset s).cq = s.cq := by
  unfold applyEngineReset; split <;> simp
@[simp] theorem applyEngineReset_ss (s : State) : (applyEngineReset s).ss = s.ss := by
  unfold applyEngineReset; split <;> simp
@[simp] theorem applyEngineReset_lastGranted (s : State) : (applyEngineReset s).lastGranted = s.lastGranted := by
  unfold applyEngineReset; split <;> simp

end Machine

end Sys2Proof
end

