-- ==== Sys2Proof/Laws/Ops.lean ====
section
/-!
SUPPORT. Laws/Ops.lean: for each shared operation over commands and ports, what it can do, said once: the
course of a frame, the checks that come first, the answers, and the raising of notice flags.
-/

namespace Sys2Proof.Machine

/-! ### The course of a frame -/

theorem takesCommand_iff (s : State) (p : Port) : takesCommand s p = true ↔ Reads s p := by
  simp only [takesCommand, receiving, Reads, Bool.and_eq_true, decide_eq_true_eq, and_assoc]
  simp

theorem takesStream_iff (s : State) (p : Port) : takesStream s p = true ↔ ReadsStream s p := by
  simp only [takesStream, receiving, ReadsStream, Bool.and_eq_true, decide_eq_true_eq, and_assoc]
  simp

/-- A frame on a port that reads no command frame leaves everything as it stands. -/
theorem commandFrame_unread {s : State} {p : Port} (h : ¬Reads s p) (covered : List Byte) (chk : Byte)
    (deal : State → Answer) : commandFrame p covered chk deal s = s := by
  rw [← takesCommand_iff] at h; simp [commandFrame, h]

theorem intakeFree_iff (s : State) : intakeFree s = true ↔ NothingWaits s := by
  simp only [intakeFree, Port.all, List.all_cons, List.all_nil, Bool.and_true, Bool.and_eq_true,
    List.isEmpty_iff, State.port]
  exact ⟨fun h q => by cases q <;> simp [h], fun h => ⟨h _, h _, h _⟩⟩

/-- A command passed on is dealt with at once by a free intake, and otherwise waits at its port. -/
theorem passToIntake_cases (p : Port) (f : WaitingFrame) (deal : State → Answer) (s : State) :
    (NothingWaits s ∧ passToIntake p f deal s = intake p deal s)
    ∨ (¬NothingWaits s ∧ passToIntake p f deal s = joinWaiting p f s) := by
  by_cases h : NothingWaits s
  · exact .inl ⟨h, by simp [passToIntake, (intakeFree_iff s).2 h]⟩
  · exact .inr ⟨h, by simp [passToIntake, mt (intakeFree_iff s).1 h]⟩

/-- A well-checked frame is dealt with by a free intake. -/
theorem commandFrame_checked {s : State} {p : Port} (h : Reads s p) (hw : NothingWaits s)
    (covered : List Byte) (deal : State → Answer) :
    commandFrame p covered (crc8 covered) deal s = intake p deal s := by
  rw [← takesCommand_iff] at h
  rw [← intakeFree_iff] at hw
  simp [commandFrame, passToIntake, h, hw]

/-- A well-checked frame waits at its port while another command waits. -/
theorem commandFrame_waits {s : State} {p : Port} (h : Reads s p) (hw : ¬NothingWaits s)
    (covered : List Byte) (deal : State → Answer) :
    commandFrame p covered (crc8 covered) deal s = joinWaiting p ⟨false, covered⟩ s := by
  rw [← takesCommand_iff] at h
  rw [← intakeFree_iff] at hw
  simp [commandFrame, passToIntake, h, hw]

/-- A frame with a wrong check byte is answered CHECK by its port. -/
theorem commandFrame_wrong {s : State} {p : Port} (h : Reads s p) {covered : List Byte} {chk : Byte}
    (hc : crc8 covered ≠ chk) (deal : State → Answer) :
    commandFrame p covered chk deal s = reply p .check [] s := by
  rw [← takesCommand_iff] at h; simp [commandFrame, h, hc]

/-- Everything a command frame can do. -/
theorem commandFrame_cases (p : Port) (covered : List Byte) (chk : Byte) (deal : State → Answer)
    (s : State) :
    (¬Reads s p ∧ commandFrame p covered chk deal s = s)
    ∨ (Reads s p ∧ crc8 covered ≠ chk ∧ commandFrame p covered chk deal s = reply p .check [] s)
    ∨ (Reads s p ∧ crc8 covered = chk ∧ NothingWaits s
        ∧ commandFrame p covered chk deal s = intake p deal s)
    ∨ (Reads s p ∧ crc8 covered = chk ∧ ¬NothingWaits s
        ∧ commandFrame p covered chk deal s = joinWaiting p ⟨false, covered⟩ s) := by
  by_cases h : Reads s p
  · by_cases hc : crc8 covered = chk
    · subst hc
      by_cases hw : NothingWaits s
      · exact .inr (.inr (.inl ⟨h, rfl, hw, commandFrame_checked h hw covered deal⟩))
      · exact .inr (.inr (.inr ⟨h, rfl, hw, commandFrame_waits h hw covered deal⟩))
    · exact .inr (.inl ⟨h, hc, commandFrame_wrong h hc deal⟩)
  · exact .inl ⟨h, commandFrame_unread h covered chk deal⟩

/-- A frame whose length its own bytes give is the command frame of its bytes, or nothing while its check
byte is missing. -/
theorem sizedFrame_eq (p : Port) (head : List Byte) (n : Nat) (body : List Byte)
    (deal : State → Answer) (s : State) :
    sizedFrame p head n body deal s =
      match sizedFrameOf p head n body with
      | some f => commandFrame p f.covered f.chk deal s
      | none => s := by
  unfold sizedFrame sizedFrameOf
  cases body[n]? <;> rfl

/-- Every row that brings a command frame runs the course of that frame. -/
theorem exec_commandFrame {c : Instr} {f : Frame} (h : commandFrameOf c = some f) :
    ∃ deal, ∀ s, exec c s = .next (commandFrame f.port f.covered f.chk deal s) := by
  cases c with
  | cue p target code body =>
    refine ⟨dealCue target code (body.take (embeddedLength code)) p, fun s => ?_⟩
    simp only [commandFrameOf] at h
    have hp : f.port = p := by
      unfold sizedFrameOf at h
      cases hb : body[embeddedLength code]? <;> simp [hb] at h
      rw [← h]
    simp only [exec, execCue, sizedFrame_eq, h, hp]
  | sceneLoad p slot mask body =>
    refine ⟨dealSceneLoad slot mask (body.take (partsLength mask)), fun s => ?_⟩
    simp only [commandFrameOf] at h
    have hp : f.port = p := by
      unfold sizedFrameOf at h
      cases hb : body[partsLength mask]? <;> simp [hb] at h
      rw [← h]
    simp only [exec, execSceneLoad, sizedFrame_eq, h, hp]
  | _ =>
    simp only [commandFrameOf, Option.some.injEq, reduceCtorEq] at h
    try subst h
    try exact ⟨_, fun s => rfl⟩

/-- A row that brings a command frame whose check byte is missing changes nothing. -/
theorem sizedFrameOf_port {p : Port} {head : List Byte} {n : Nat} {body : List Byte} {f : Frame}
    (h : sizedFrameOf p head n body = some f) : f.port = p := by
  unfold sizedFrameOf at h
  cases hb : body[n]? <;> simp [hb] at h
  rw [← h]

/-! ### Answers -/

/-- The answer that the intake leaves: the port in AWAITING, the port last granted. -/
theorem reply_eq_answering (s : State) (p : Port) (o : CmdOutcome) (d : List Byte)
    (h : s.lastGranted = p) : reply p o d s = s.answering p o d := by
  subst h; rfl

theorem intake_eq (p : Port) (deal : State → Answer) (s : State) :
    intake p deal s = reply p (deal (grant p s)).outcome (deal (grant p s)).data
      (deal (grant p s)).state := rfl

/-- Everything the first checks can give: LOCKED, PARAM, or what follows. -/
theorem checked_cases (p : Port) (rs : List Resource) (inRange : Bool) (s : State) (rest : Answer) :
    (lockedOut s p rs = true ∧ checked p rs inRange s rest = refuse .locked s)
    ∨ (lockedOut s p rs = false ∧ inRange = false ∧ checked p rs inRange s rest = refuse .param s)
    ∨ (lockedOut s p rs = false ∧ inRange = true ∧ checked p rs inRange s rest = rest) := by
  unfold checked
  cases lockedOut s p rs <;> cases inRange <;> simp

/-- Everything the checks of the slot writers can give: LOCKED, PARAM, or what follows. -/
theorem slotChecked_cases (slot : Byte) (inRange : Bool) (s : State) (rest : Answer) :
    (isProtected s slot = true ∧ slotChecked slot inRange s rest = refuse .locked s)
    ∨ (isProtected s slot = false ∧ inRange = false
        ∧ slotChecked slot inRange s rest = refuse .param s)
    ∨ (isProtected s slot = false ∧ inRange = true ∧ slotChecked slot inRange s rest = rest) := by
  unfold slotChecked
  cases isProtected s slot <;> cases inRange <;> simp

/-- IGNORED with nothing changed, or OK with the change. -/
theorem unlessSame_cases (same : Bool) (s' s : State) :
    (same = true ∧ unlessSame same s' s = taken .ignored s)
    ∨ (same = false ∧ unlessSame same s' s = taken .ok s') := by
  cases same <;> simp [unlessSame]

@[simp] theorem heldByOther_grant (s : State) (p q : Port) (r : Resource) :
    heldByOther (grant q s) p r = heldByOther s p r := rfl

@[simp] theorem lockedOut_grant (s : State) (p q : Port) (rs : List Resource) :
    lockedOut (grant q s) p rs = lockedOut s p rs := rfl

/-- A port is never locked out by its own locks. -/
theorem heldByOther_iff (s : State) (p : Port) (r : Resource) :
    heldByOther s p r = true ↔ ∃ q, s.mes.locks.get r = some q ∧ q ≠ p := by
  unfold heldByOther
  cases s.mes.locks.get r <;> simp

/-! ### Notice flags -/

theorem flagSet_setFlag (word : Half) (n m : Notice) :
    flagSet (setFlag word n) m = (flagSet word m || decide (m = n)) := by
  cases n <;> cases m <;> simp [flagSet, setFlag, noticeBit]

@[simp] theorem flagSet_setFlag_self (word : Half) (n : Notice) : flagSet (setFlag word n) n = true := by
  simp [flagSet_setFlag]

theorem setFlag_lt {word : Half} (h : word.toNat < 1024) (n : Notice) : (setFlag word n).toNat < 1024 := by
  simp only [setFlag, BitVec.toNat_or]
  exact Nat.or_lt_two_pow (n := 10) h (by cases n <;> decide)

/-- A conditional raise either raises to all or does nothing. -/
theorem raiseAllWhen_cases (c : Bool) (n : Notice) (s : State) :
    (c = true ∧ raiseAllWhen c n s = raiseAll n s) ∨ (c = false ∧ raiseAllWhen c n s = s) := by
  cases c <;> simp [raiseAllWhen]

@[simp] theorem raiseAllWhen_get (c : Bool) (n : Notice) (s : State) (p : Port) :
    (raiseAllWhen c n s).ports.get p = raisedWhen c n (s.ports.get p) := by
  cases c <;> simp [raiseAllWhen, raisedWhen]

end Sys2Proof.Machine
end

