-- ==== Sys2Proof/Laws/Deals.lean ====
section
/-!
SUPPORT. Laws/Deals.lean: what the commands that a cue may carry (R143) leave alone, said once: they write
requested sources, the next copy, the pending actions and the reload mark, and nothing else.
-/

namespace Sys2Proof.Machine

/-- Two states agree on all that the commands of R143 leave alone. -/
structure SameBeyondRequests (s t : State) : Prop where
  pending : t.pending = s.pending
  resetLow : t.resetLow = s.resetLow
  rtg : t.rtg = s.rtg
  thresholds : t.bi.lMin = s.bi.lMin ∧ t.bi.lMax = s.bi.lMax
  inputs : ∀ i, ∃ src, t.bi.inputs.get i = { s.bi.inputs.get i with requested := src }
  xl : t.xl = s.xl
  live : t.mes.live = s.mes.live
  locks : t.mes.locks = s.mes.locks
  controller : t.tc.mode = s.tc.mode ∧ t.tc.pos = s.tc.pos ∧ t.tc.role = s.tc.role
    ∧ t.tc.onAir = s.tc.onAir ∧ t.tc.inFlight = s.tc.inFlight
  counts : t.tc.manualDeferrals = s.tc.manualDeferrals ∧ t.tc.resetPending = s.tc.resetPending
  lu : t.lu = s.lu
  direction : t.wg.direction = s.wg.direction
  cmp : t.cmp = s.cmp
  tu : t.tu = s.tu
  cq : t.cq = s.cq
  ss : t.ss = s.ss
  ports : t.ports = s.ports
  lastGranted : t.lastGranted = s.lastGranted

theorem SameBeyondRequests.refl (s : State) : SameBeyondRequests s s :=
  ⟨rfl, rfl, rfl, ⟨rfl, rfl⟩, fun _ => ⟨_, rfl⟩, rfl, rfl, rfl, ⟨rfl, rfl, rfl, rfl, rfl⟩, ⟨rfl, rfl⟩, rfl,
    rfl, rfl, rfl, rfl, rfl, rfl, rfl⟩

theorem SameBeyondRequests.then {s t u : State} (h : SameBeyondRequests s t)
    (k : SameBeyondRequests t u) : SameBeyondRequests s u where
  pending := k.pending.trans h.pending
  resetLow := k.resetLow.trans h.resetLow
  rtg := k.rtg.trans h.rtg
  thresholds := ⟨k.thresholds.1.trans h.thresholds.1, k.thresholds.2.trans h.thresholds.2⟩
  inputs i := by
    obtain ⟨x, hx⟩ := h.inputs i
    obtain ⟨y, hy⟩ := k.inputs i
    exact ⟨y, by rw [hy, hx]⟩
  xl := k.xl.trans h.xl
  live := k.live.trans h.live
  locks := k.locks.trans h.locks
  controller := ⟨k.controller.1.trans h.controller.1, k.controller.2.1.trans h.controller.2.1,
    k.controller.2.2.1.trans h.controller.2.2.1, k.controller.2.2.2.1.trans h.controller.2.2.2.1,
    k.controller.2.2.2.2.trans h.controller.2.2.2.2⟩
  counts := ⟨k.counts.1.trans h.counts.1, k.counts.2.trans h.counts.2⟩
  lu := k.lu.trans h.lu
  direction := k.direction.trans h.direction
  cmp := k.cmp.trans h.cmp
  tu := k.tu.trans h.tu
  cq := k.cq.trans h.cq
  ss := k.ss.trans h.ss
  ports := k.ports.trans h.ports
  lastGranted := k.lastGranted.trans h.lastGranted

/-! ### The operations the commands are made of -/

theorem mapNext_same (f : Setup → Setup) (s : State) : SameBeyondRequests s (mapNext f s) :=
  ⟨rfl, rfl, rfl, ⟨rfl, rfl⟩, fun _ => ⟨_, rfl⟩, rfl, rfl, rfl, ⟨rfl, rfl, rfl, rfl, rfl⟩, ⟨rfl, rfl⟩, rfl,
    rfl, rfl, rfl, rfl, rfl, rfl, rfl⟩

theorem writeWipe_same (w : WipeSetup) (s : State) : SameBeyondRequests s (writeWipe w s) :=
  ⟨rfl, rfl, rfl, ⟨rfl, rfl⟩, fun _ => ⟨_, rfl⟩, rfl, rfl, rfl, ⟨rfl, rfl, rfl, rfl, rfl⟩, ⟨rfl, rfl⟩, rfl,
    rfl, rfl, rfl, rfl, rfl, rfl, rfl⟩

theorem request_same (i : InputId) (src : Source) (s : State) : SameBeyondRequests s (request i src s) := by
  refine ⟨rfl, rfl, rfl, ⟨rfl, rfl⟩, fun j => ?_, rfl, rfl, rfl, ⟨rfl, rfl, rfl, rfl, rfl⟩, ⟨rfl, rfl⟩, rfl,
    rfl, rfl, rfl, rfl, rfl, rfl, rfl⟩
  by_cases h : j = i
  · subst h; exact ⟨src, by simp [request, State.setInput, State.input]⟩
  · exact ⟨_, by simp [request, State.setInput, State.input, h]; rfl⟩

/-- A change of the pending actions alone. -/
theorem pendingActions_same (s : State) (m : MainAction) (i : PerPort Bool) (n : Nat)
    (k : PerKeyer (Option KeyCut)) (c : Option SceneCut) :
    SameBeyondRequests s { s with tc := { s.tc with
      main := m, issuing := i, mainDeferrals := n, keyCuts := k, sceneCut := c } } :=
  ⟨rfl, rfl, rfl, ⟨rfl, rfl⟩, fun _ => ⟨_, rfl⟩, rfl, rfl, rfl, ⟨rfl, rfl, rfl, rfl, rfl⟩, ⟨rfl, rfl⟩, rfl,
    rfl, rfl, rfl, rfl, rfl, rfl, rfl⟩

/-! ### The twelve commands -/

theorem checked_same {p : Port} {rs : List Resource} {ok : Bool} {s : State} {rest : Answer}
    (h : SameBeyondRequests s rest.state) : SameBeyondRequests s (checked p rs ok s rest).state := by
  rcases checked_cases p rs ok s rest with ⟨-, e⟩ | ⟨-, -, e⟩ | ⟨-, -, e⟩ <;> rw [e]
  · exact .refl s
  · exact .refl s
  · exact h

theorem unlessSame_same {b : Bool} {s t : State} (h : SameBeyondRequests s t) :
    SameBeyondRequests s (unlessSame b t s).state := by
  rcases unlessSame_cases b t s with ⟨-, e⟩ | ⟨-, e⟩ <;> rw [e]
  · exact .refl s
  · exact h

theorem recallSources_same (k : Keyer) (sk : SceneKeyer) (s : State) :
    SameBeyondRequests s (recallSources k sk s) := (request_same _ _ s).then (request_same _ _ _)

theorem recallOffAir_same (keys : PerKeyer SceneKeyer) (s : State) (k : Keyer) :
    SameBeyondRequests s (recallOffAir keys s k) := by
  unfold recallOffAir
  split
  · exact .refl s
  · exact (recallSources_same _ _ s).then (mapNext_same _ _)

/-- Folding an operation that stays within the requests stays within them. -/
theorem foldl_same {α : Type} (f : State → α → State) (h : ∀ s a, SameBeyondRequests s (f s a))
    (l : List α) (s : State) : SameBeyondRequests s (l.foldl f s) := by
  induction l generalizing s with
  | nil => exact .refl s
  | cons a l ih => exact (h s a).then (ih _)

theorem recallTrans_same (t : SceneTrans) (sel : LayerSet) (s : State) :
    SameBeyondRequests s (recallTrans t sel s) := (mapNext_same _ s).then (writeWipe_same _ _)

theorem recallOrder_same (o : Option KeyOrder) (s : State) : SameBeyondRequests s (recallOrder o s) := by
  cases o with
  | none => exact .refl s
  | some o => exact mapNext_same (fun n => { n with order := o }) s

theorem recallDirect_same (sc : Scene) (s : State) : SameBeyondRequests s (recallDirect sc s) := by
  unfold recallDirect
  refine .then ?_ (recallOrder_same _ _)
  refine .then (t := ?_) ?_ ?_
  rotate_left 2
  · split
    · exact recallTrans_same _ _ _
    · exact .refl _
  · refine .then (t := ?_) ?_ ?_
    rotate_left 2
    · split
      · rename_i keys _
        refine (foldl_same (fun s k => recallSources k (keys.get k) s)
          (fun s k => recallSources_same k _ s) Keyer.all _).then ?_
        exact pendingActions_same _ _ _ _ _ _
      · exact .refl _
    · split
      · exact (request_same _ _ _).then (request_same _ _ _)
      · exact .refl _

theorem recallPreview_same (sc : Scene) (s : State) : SameBeyondRequests s (recallPreview sc s) := by
  unfold recallPreview
  refine .then ?_ (recallOrder_same _ _)
  refine .then (t := ?_) ?_ ?_
  rotate_left 2
  · split
    · exact recallTrans_same _ _ _
    · exact .refl _
  · refine .then (t := ?_) ?_ ?_
    rotate_left 2
    · split
      · exact foldl_same _ (fun s k => recallOffAir_same _ s k) _ _
      · exact .refl _
    · split
      · exact request_same _ _ _
      · exact .refl _

/-- Each of the twelve commands stays within the requests and pending actions, whatever its outcome. -/
theorem dealCueCommand_same (c : CueCommand) (p : Port) (s : State) :
    SameBeyondRequests s (dealCueCommand c p s).state := by
  cases c with
  | selectBus bus src =>
    refine checked_same ?_
    split
    · split
      · exact .refl s
      · exact unlessSame_same (request_same _ _ s)
    · exact .refl s
  | setNext layers type =>
    refine checked_same ?_
    split
    · exact unlessSame_same (mapNext_same _ s)
    · exact .refl s
  | setRate rate =>
    refine checked_same ?_
    split
    · exact mapNext_same (fun n => { n with rate := 999 }) s
    · exact unlessSame_same (mapNext_same _ s)
  | keySetup k f c g o =>
    refine checked_same ?_
    split
    · dsimp only
      split
      · exact mapNext_same _ s
      · exact unlessSame_same (mapNext_same _ s)
    · exact .refl s
  | keyCrop k e l r t b =>
    refine checked_same ?_
    split
    · dsimp only
      split
      · exact mapNext_same _ s
      · exact unlessSame_same (mapNext_same _ s)
    · exact .refl s
  | keyOrder a b c d =>
    refine checked_same ?_
    split
    · exact unlessSame_same (mapNext_same _ s)
    · exact .refl s
  | wipeSetup pat e rh rv cx cy f =>
    refine checked_same ?_
    split
    · exact unlessSame_same (writeWipe_same _ s)
    · exact .refl s
  | matteSet m y cb cr =>
    refine checked_same ?_
    dsimp only [taken]
    split
    · exact mapNext_same _ s
    · exact mapNext_same _ s
  | cut =>
    refine checked_same ?_
    dsimp only [taken]
    split <;> exact pendingActions_same s _ _ _ _ _
  | auto =>
    refine checked_same ?_
    split
    · exact .refl s
    · exact .refl s
    · exact pendingActions_same s _ _ _ _ _
    · exact pendingActions_same s _ _ _ _ _
  | keyCut k t =>
    refine checked_same ?_
    split
    · dsimp only
      split
      · exact .refl s
      · exact unlessSame_same (pendingActions_same s _ _ _ _ _)
    · exact .refl s
  | sceneRecall slot mode =>
    refine checked_same ?_
    split
    · split
      · exact .refl s
      · dsimp only [taken]
        split
        · exact recallDirect_same _ s
        · exact recallPreview_same _ s
    · exact .refl s

end Sys2Proof.Machine
end

