-- ==== Sys2Proof/Laws/Intake.lean ====
section
/-!
SUPPORT. Laws/Intake.lean: the grant of waiting commands (R169). The intake deals with the bytes of a frame
as the frame's row does, and a grant takes the oldest command of one port.
-/

namespace Sys2Proof.Machine

/-! ### Fields read back from their bytes -/

@[simp] theorem half_be16 (h : Half) : half (h.extractLsb' 8 8) (h.extractLsb' 0 8) = h := by
  apply BitVec.eq_of_toNat_eq
  have := h.isLt
  simp only [half, BitVec.toNat_append, BitVec.extractLsb'_toNat, Nat.shiftRight_eq_div_pow]
  rw [← Nat.shiftLeft_add_eq_or_of_lt (Nat.mod_lt _ (by decide)), Nat.shiftLeft_eq]
  omega

@[simp] theorem word_be32 (w : Word) :
    word (w.extractLsb' 24 8) (w.extractLsb' 16 8) (w.extractLsb' 8 8) (w.extractLsb' 0 8) = w := by
  apply BitVec.eq_of_toNat_eq
  have := w.isLt
  have join (a b : Byte) : (half a b).toNat = a.toNat * 256 + b.toNat := by
    simp only [half, BitVec.toNat_append]
    rw [← Nat.shiftLeft_add_eq_or_of_lt b.isLt, Nat.shiftLeft_eq]
  unfold word
  rw [BitVec.toNat_append, ← Nat.shiftLeft_add_eq_or_of_lt (half _ _).isLt, Nat.shiftLeft_eq, join, join]
  simp only [BitVec.extractLsb'_toNat, Nat.shiftRight_eq_div_pow]
  omega

/-! ### The bytes of a frame and its row -/

theorem dealCovered_stateRead (p : Port) :
    dealCovered p [0x01#8] = dealStateRead := rfl
theorem dealCovered_timingRead (p : Port) :
    dealCovered p [0x02#8] = dealTimingRead := rfl
theorem dealCovered_inputRead (p : Port) (i : Byte) :
    dealCovered p [0x03#8, i] = dealInputRead i := rfl
theorem dealCovered_tallyRead (p : Port) (start : Byte) (count : Byte) (window : Byte) :
    dealCovered p [0x04#8, start, count, window] = dealTallyRead start count window := rfl
theorem dealCovered_tallyChanges (p : Port) :
    dealCovered p [0x05#8] = dealTallyChanges p := rfl
theorem dealCovered_clipRead (p : Port) :
    dealCovered p [0x06#8] = dealClipRead := rfl
theorem dealCovered_cueList (p : Port) :
    dealCovered p [0x07#8] = dealCueList p := rfl
theorem dealCovered_sceneRead (p : Port) (slot : Byte) :
    dealCovered p [0x08#8, slot] = dealSceneRead slot := rfl
theorem dealCovered_noticeRead (p : Port) :
    dealCovered p [0x09#8] = dealNoticeRead p := rfl
theorem dealCovered_selectBus (p : Port) (bus : Byte) (src : Byte) :
    dealCovered p [0x10#8, bus, src] = dealSelectBus bus src p := rfl
theorem dealCovered_setNext (p : Port) (layers : Byte) (type : Byte) :
    dealCovered p [0x11#8, layers, type] = dealSetNext layers type p := rfl
theorem dealCovered_setRate (p : Port) (rate : Half) :
    dealCovered p (0x12#8 :: be16 rate) = dealSetRate rate p := by
  show dealSetRate (half (rate.extractLsb' 8 8) (rate.extractLsb' 0 8)) p = _
  simp only [half_be16]
theorem dealCovered_keySetup (p : Port) (k : Byte) (f : Byte) (clip : Half) (gain : Half) (op : Half) :
    dealCovered p ([0x13#8, k, f] ++ be16 clip ++ be16 gain ++ be16 op) = dealKeySetup k f clip gain op p
    := by
  show dealKeySetup k f (half (clip.extractLsb' 8 8) (clip.extractLsb' 0 8)) (half (gain.extractLsb' 8 8)
    (gain.extractLsb' 0 8)) (half (op.extractLsb' 8 8) (op.extractLsb' 0 8)) p = _
  simp only [half_be16]
theorem dealCovered_keyCrop (p : Port) (k : Byte) (e : Byte) (l : Half) (r : Half) (t : Half) (b : Half) :
    dealCovered p ([0x14#8, k, e] ++ be16 l ++ be16 r ++ be16 t ++ be16 b) = dealKeyCrop k e l r t b p := by
  show dealKeyCrop k e (half (l.extractLsb' 8 8) (l.extractLsb' 0 8)) (half (r.extractLsb' 8 8)
    (r.extractLsb' 0 8)) (half (t.extractLsb' 8 8) (t.extractLsb' 0 8)) (half (b.extractLsb' 8 8)
    (b.extractLsb' 0 8)) p = _
  simp only [half_be16]
theorem dealCovered_keyOrder (p : Port) (a : Byte) (b : Byte) (c : Byte) (d : Byte) :
    dealCovered p [0x15#8, a, b, c, d] = dealKeyOrder a b c d p := rfl
theorem dealCovered_wipeSetup (p : Port) (pat : Byte) (e : Half) (rh : Byte) (rv : Byte) (cx : Half) (cy :
    Half) (f : Byte) :
    dealCovered p ([0x16#8, pat] ++ be16 e ++ [rh, rv] ++ be16 cx ++ be16 cy ++ [f]) = dealWipeSetup pat e
    rh rv cx cy f p := by
  show dealWipeSetup pat (half (e.extractLsb' 8 8) (e.extractLsb' 0 8)) rh rv (half (cx.extractLsb' 8 8)
    (cx.extractLsb' 0 8)) (half (cy.extractLsb' 8 8) (cy.extractLsb' 0 8)) f p = _
  simp only [half_be16]
theorem dealCovered_matteSet (p : Port) (m : Byte) (y : Half) (cb : Half) (cr : Half) :
    dealCovered p ([0x17#8, m] ++ be16 y ++ be16 cb ++ be16 cr) = dealMatteSet m y cb cr p := by
  show dealMatteSet m (half (y.extractLsb' 8 8) (y.extractLsb' 0 8)) (half (cb.extractLsb' 8 8)
    (cb.extractLsb' 0 8)) (half (cr.extractLsb' 8 8) (cr.extractLsb' 0 8)) p = _
  simp only [half_be16]
theorem dealCovered_limiterSetup (p : Port) (yl : Half) (yh : Half) (cl : Half) (ch : Half) :
    dealCovered p (0x18#8 :: (be16 yl ++ be16 yh ++ be16 cl ++ be16 ch)) = dealLimiterSetup yl yh cl ch p
    := by
  show dealLimiterSetup (half (yl.extractLsb' 8 8) (yl.extractLsb' 0 8)) (half (yh.extractLsb' 8 8)
    (yh.extractLsb' 0 8)) (half (cl.extractLsb' 8 8) (cl.extractLsb' 0 8)) (half (ch.extractLsb' 8 8)
    (ch.extractLsb' 0 8)) p = _
  simp only [half_be16]
theorem dealCovered_lock (p : Port) (mask : Byte) :
    dealCovered p [0x19#8, mask] = dealLock mask p := rfl
theorem dealCovered_unlock (p : Port) (mask : Byte) :
    dealCovered p [0x1A#8, mask] = dealUnlock mask p := rfl
theorem dealCovered_cut (p : Port) :
    dealCovered p [0x20#8] = dealCut p := rfl
theorem dealCovered_auto (p : Port) :
    dealCovered p [0x21#8] = dealAuto p := rfl
theorem dealCovered_keyCut (p : Port) (k : Byte) (t : Byte) :
    dealCovered p [0x22#8, k, t] = dealKeyCut k t p := rfl
theorem dealCovered_lever (p : Port) (v : Half) (mode : Byte) :
    dealCovered p (0x23#8 :: (be16 v ++ [mode])) = dealLever v mode p := by
  show dealLever (half (v.extractLsb' 8 8) (v.extractLsb' 0 8)) mode p = _
  simp only [half_be16]
theorem dealCovered_leverRelease (p : Port) :
    dealCovered p [0x24#8] = dealLeverRelease p := rfl
theorem dealCovered_cueCancel (p : Port) (tag : Half) :
    dealCovered p (0x31#8 :: be16 tag) = dealCueCancel tag p := by
  show dealCueCancel (half (tag.extractLsb' 8 8) (tag.extractLsb' 0 8)) p = _
  simp only [half_be16]
theorem dealCovered_sceneSave (p : Port) (slot : Byte) (mask : Byte) :
    dealCovered p [0x38#8, slot, mask] = dealSceneSave slot mask := rfl
theorem dealCovered_sceneErase (p : Port) (slot : Byte) :
    dealCovered p [0x3A#8, slot] = dealSceneErase slot := rfl
theorem dealCovered_sceneRecall (p : Port) (slot : Byte) (mode : Byte) :
    dealCovered p [0x39#8, slot, mode] = dealSceneRecall slot mode p := rfl
theorem dealCovered_sceneProtect (p : Port) (count : Byte) :
    dealCovered p [0x3C#8, count] = dealSceneProtect count p := rfl
theorem dealCovered_timingSetup (p : Port) (raster : Byte) (enable : Byte) :
    dealCovered p [0x40#8, raster, enable] = dealTimingSetup raster enable p := rfl
theorem dealCovered_setFrameCount (p : Port) (v : Word) :
    dealCovered p (0x41#8 :: be32 v) = dealSetFrameCount v p := by
  show dealSetFrameCount (word (v.extractLsb' 24 8) (v.extractLsb' 16 8) (v.extractLsb' 8 8) (v.extractLsb'
    0 8)) p = _
  simp only [word_be32]
theorem dealCovered_alignSetup (p : Port) (lo : Byte) (hi : Byte) :
    dealCovered p [0x42#8, lo, hi] = dealAlignSetup lo hi p := rfl
theorem dealCovered_portSetup (p : Port) (format : Byte) (quiet : Byte) :
    dealCovered p [0x48#8, format, quiet] = dealPortSetup format quiet p := rfl
theorem dealCovered_noticeMask (p : Port) (mask : Half) :
    dealCovered p (0x49#8 :: be16 mask) = dealNoticeMask mask p := by
  show dealNoticeMask (half (mask.extractLsb' 8 8) (mask.extractLsb' 0 8)) p = _
  simp only [half_be16]
theorem dealCovered_portReset (p : Port) :
    dealCovered p [0x4A#8] = dealPortReset p := rfl
theorem dealCovered_engineReset (p : Port) :
    dealCovered p [0x4B#8] = dealEngineReset p := rfl
theorem dealCovered_cue (p : Port) (target : Word) (code : Byte) (args : List Byte) :
    dealCovered p (0x30#8 :: (be32 target ++ [code]) ++ args) = dealCue target code args p := by
  show dealCue (word (target.extractLsb' 24 8) (target.extractLsb' 16 8) (target.extractLsb' 8 8)
    (target.extractLsb' 0 8)) code args p = _
  simp only [word_be32]
theorem dealCovered_sceneLoad (p : Port) (slot mask : Byte) (parts : List Byte)
    (h : parts.length = partsLength mask) :
    dealCovered p ([0x3B#8, slot, mask] ++ parts) = dealSceneLoad slot mask parts := by
  funext s
  show (if parts.length = partsLength mask then dealSceneLoad slot mask parts s else refuse .illegal s) = _
  rw [if_pos h]

/-- The bytes before the check byte of a sized frame. -/
theorem sizedFrameOf_eq {p : Port} {head : List Byte} {n : Nat} {body : List Byte} {f : Frame}
    (h : sizedFrameOf p head n body = some f) :
    f.port = p ∧ f.covered = head ++ body.take n ∧ (body.take n).length = n := by
  unfold sizedFrameOf at h
  cases hb : body[n]? with
  | none => simp [hb] at h
  | some chk =>
    simp only [hb, Option.map_some, Option.some.injEq] at h
    have := (List.getElem?_eq_some_iff.1 hb).1
    subst h
    exact ⟨rfl, rfl, by simp only [List.length_take]; omega⟩

/-- The answer of a command frame's row does not depend on whether its bytes reach the intake at once or
wait first. -/
theorem exec_dealCovered {c : Instr} {f : Frame} (h : commandFrameOf c = some f) (s : State) :
    exec c s = .next (commandFrame f.port f.covered f.chk (dealCovered f.port f.covered) s) := by
  cases c with
  | cue p target code body =>
    obtain ⟨hp, hc, -⟩ := sizedFrameOf_eq h
    rw [hp, hc, dealCovered_cue, ← hc]
    simp only [commandFrameOf] at h
    simp only [exec, execCue, sizedFrame_eq, h]
  | sceneLoad p slot mask body =>
    obtain ⟨hp, hc, hl⟩ := sizedFrameOf_eq h
    rw [hp, hc, dealCovered_sceneLoad _ _ _ _ hl, ← hc]
    simp only [commandFrameOf] at h
    simp only [exec, execSceneLoad, sizedFrame_eq, h]
  | stateRead => cases h; rw [dealCovered_stateRead]; rfl
  | timingRead => cases h; rw [dealCovered_timingRead]; rfl
  | inputRead => cases h; rw [dealCovered_inputRead]; rfl
  | tallyRead => cases h; rw [dealCovered_tallyRead]; rfl
  | tallyChanges => cases h; rw [dealCovered_tallyChanges]; rfl
  | clipRead => cases h; rw [dealCovered_clipRead]; rfl
  | cueList => cases h; rw [dealCovered_cueList]; rfl
  | sceneRead => cases h; rw [dealCovered_sceneRead]; rfl
  | noticeRead => cases h; rw [dealCovered_noticeRead]; rfl
  | selectBus => cases h; rw [dealCovered_selectBus]; rfl
  | setNext => cases h; rw [dealCovered_setNext]; rfl
  | setRate => cases h; rw [dealCovered_setRate]; rfl
  | keySetup => cases h; rw [dealCovered_keySetup]; rfl
  | keyCrop => cases h; rw [dealCovered_keyCrop]; rfl
  | keyOrder => cases h; rw [dealCovered_keyOrder]; rfl
  | wipeSetup => cases h; rw [dealCovered_wipeSetup]; rfl
  | matteSet => cases h; rw [dealCovered_matteSet]; rfl
  | limiterSetup => cases h; rw [dealCovered_limiterSetup]; rfl
  | lock => cases h; rw [dealCovered_lock]; rfl
  | unlock => cases h; rw [dealCovered_unlock]; rfl
  | cut => cases h; rw [dealCovered_cut]; rfl
  | auto => cases h; rw [dealCovered_auto]; rfl
  | keyCut => cases h; rw [dealCovered_keyCut]; rfl
  | lever => cases h; rw [dealCovered_lever]; rfl
  | leverRelease => cases h; rw [dealCovered_leverRelease]; rfl
  | cueCancel => cases h; rw [dealCovered_cueCancel]; rfl
  | sceneSave => cases h; rw [dealCovered_sceneSave]; rfl
  | sceneErase => cases h; rw [dealCovered_sceneErase]; rfl
  | sceneRecall => cases h; rw [dealCovered_sceneRecall]; rfl
  | sceneProtect => cases h; rw [dealCovered_sceneProtect]; rfl
  | timingSetup => cases h; rw [dealCovered_timingSetup]; rfl
  | setFrameCount => cases h; rw [dealCovered_setFrameCount]; rfl
  | alignSetup => cases h; rw [dealCovered_alignSetup]; rfl
  | portSetup => cases h; rw [dealCovered_portSetup]; rfl
  | noticeMask => cases h; rw [dealCovered_noticeMask]; rfl
  | portReset => cases h; rw [dealCovered_portReset]; rfl
  | engineReset => cases h; rw [dealCovered_engineReset]; rfl
  | _ => cases h

/-! ### The grant -/

/-- Everything a grant can do: nothing when no command waits; otherwise the first port in the rotating order
that has one gives up its oldest, which is dealt with. -/
theorem grantNext_cases (s : State) :
    (NothingWaits s ∧ grantNext s = s)
    ∨ ∃ p f rest before after, grantOrder s.lastGranted = before ++ p :: after
        ∧ (∀ q ∈ before, (s.ports.get q).waiting = []) ∧ (s.ports.get p).waiting = f :: rest
        ∧ grantNext s = grantWaiting p f rest s := by
  unfold grantNext
  cases hn : nextGranted s with
  | none =>
    refine .inl ⟨fun q => ?_, rfl⟩
    have := List.find?_eq_none.1 hn q (by cases q <;> cases s.lastGranted <;> decide)
    simpa [State.port] using this
  | some p =>
    obtain ⟨hp, before, after, ho, hb⟩ := List.find?_eq_some_iff_append.1 hn
    cases hw : (s.port p).waiting with
    | nil => rw [hw] at hp; cases hp
    | cons f rest =>
      have first : ∀ q ∈ before, (s.ports.get q).waiting = [] := fun q hq => by
        simpa [State.port] using hb q hq
      exact .inr ⟨p, f, rest, before, after, ho, first, hw, by simp only [hw]⟩

/-- A grant deals with the command and, where its transaction awaits the answer, gives it to the port. -/
theorem grantWaiting_eq (p : Port) (f : WaitingFrame) (rest : List WaitingFrame) (s : State) :
    let a := dealWaiting p f (grant p (mapPort p (fun ps => { ps with waiting := rest }) s))
    grantWaiting p f rest s = a.state
      ∨ (rest = [] ∧ (s.ports.get p).phase = .awaiting ∧ (s.ports.get p).reply = none
        ∧ grantWaiting p f rest s = reply p a.outcome a.data a.state) := by
  intro a
  unfold grantWaiting
  split
  · next h =>
    simp only [Bool.and_eq_true, List.isEmpty_iff, awaitsAnswer, State.port,
      Option.isNone_iff_eq_none] at h
    exact .inr ⟨h.1, of_decide_eq_true h.2.1, h.2.2, rfl⟩
  · exact .inl rfl

end Sys2Proof.Machine
end

