-- ==== Sys2Proof/Laws/Stages.lean ====
section
/-!
SUPPORT. Laws/Stages.lean: for each operation of the frame take (chapter 4) and of the lever unit that the
stages share, what it leaves, said once in the vocabulary of Safety.lean.
-/

namespace Sys2Proof.Machine

/-! ### The lever unit's part -/

/-- Releasing the hold without an exemption for anyone, or with one: the holder goes, with LEVER_LOST
unless it is exempt; without a holder nothing happens. -/
theorem releaseHoldUnless_cases (exempt : Port → Bool) (s : State) :
    (s.lu.holder = none ∧ releaseHoldUnless exempt s = s)
    ∨ ∃ h, s.lu.holder = some h
        ∧ releaseHoldUnless exempt s = releaseHold (if exempt h then s else raiseTo .leverLost h s) := by
  unfold releaseHoldUnless
  cases hh : s.lu.holder with
  | none => exact .inl ⟨rfl, rfl⟩
  | some h => exact .inr ⟨h, rfl, rfl⟩

/-- Everything a holder's quiet count does at a switch point (R90). -/
theorem quietStep_cases (s : State) :
    (s.lu.holder = none ∧ quietStep s = s)
    ∨ ∃ h, s.lu.holder = some h
        ∧ ((s.lu.quiet + 1 < (s.port h).quietLimit
              ∧ quietStep s = { s with lu := { s.lu with quiet := s.lu.quiet + 1 } })
          ∨ ((s.port h).quietLimit ≤ s.lu.quiet + 1
              ∧ quietStep s = releaseHold (raiseTo .leverLost h s))) := by
  unfold quietStep releaseHoldUnless
  cases hh : s.lu.holder with
  | none => exact .inl ⟨rfl, rfl⟩
  | some h =>
    refine .inr ⟨h, rfl, ?_⟩
    by_cases hq : (s.port h).quietLimit ≤ s.lu.quiet + 1
    · exact .inr ⟨hq, by simp only [if_pos hq]; rfl⟩
    · exact .inl ⟨Nat.lt_of_not_le hq, by simp only [if_neg hq]⟩

/-- Leaving MANUAL takes the pickup of every WAITING port, and tells it (R89). -/
theorem leaveManual_eq (s : State) :
    leaveManual s = { s with
      lu := ⟨s.lu.holder, s.lu.quiet,
        .build (fun q => (s.lu.levers.get q).unlessWaiting (losesPickup s q))⟩
      ports := .build (fun q => raisedWhen (losesPickup s q) .leverLost (s.ports.get q)) } := by
  obtain ⟨_, _, _, _, _, _, ⟨mode, _, _, _, _, _, _, _, _, _, _, _⟩,
    ⟨_, _, ⟨⟨_, _, _, a⟩, ⟨_, _, _, b⟩, ⟨_, _, _, c⟩⟩⟩, _, _, _, _, _, _, _⟩ := s
  cases mode
  · rfl
  · rfl
  · cases a <;> cases b <;> cases c <;> rfl

/-! ### Performing a main action, and completion -/

/-- A main action that is performed clears itself and the hold (R70, R71, R72, R93). -/
theorem clearMain_releaseForMain (s : State) : clearMain (releaseForMain s) = s.mainPerformed := by
  obtain ⟨_, _, _, _, _, _, ⟨_, _, _, _, _, _, ⟨a, b, c⟩, _, _, _, _, _⟩, ⟨holder, _, _⟩, _, _, _, _, _, _, _⟩ := s
  rcases holder with _ | (_ | _ | _)
  · rfl
  · cases a <;> rfl
  · cases b <;> rfl
  · cases c <;> rfl

/-- Completion leaves what `State.completed` says (R76, R89, R94, R104). -/
theorem complete_eq (c : Completing) (s : State) :
    complete c s = s.completed c.selection c.type c.byLever := by
  have ht : toggleDirection c.type s =
      { s with wg := { s.wg with direction := directionAfter s c.type } } := by
    unfold toggleDirection directionAfter
    split <;> rfl
  simp only [complete, toIdle, leaveManual_eq, ht]
  obtain ⟨_, _, _, _, _, _, _, ⟨holder, _, _⟩, _, _, _, _, _, _, _⟩ := s
  obtain ⟨_, _, byLever⟩ := c
  rcases holder with _ | (_ | _ | _) <;> cases byLever <;> rfl

end Sys2Proof.Machine
end

