-- ==== Sys2Proof/Tests/Slice0.lean ====
section
/-!
SUPPORT. Tests/Slice0.lean: the model's own tests. Expected values come from the tables and worked sequences
of spec/. For each statement with hypotheses, one theorem shows a state and operands that meet them, with
the boundary values of its clauses.
-/

namespace Sys2Proof.Machine.Tests

-- one kernel evaluation at a time: each would otherwise take a thread and its stack
set_option Elab.async false

/-! ### Small states and helpers -/

/-- The state after reset with CP0 selected and receiving. -/
def ready : State := State.reset.onPort .cp0 fun ps => { ps with phase := .receiving, selectLow := true }

/-- CP0 streaming, and receiving its next frame. -/
def readyStream : State := ready.onPort .cp0 fun ps => { ps with streaming := true }

/-- CP0 in a phase of its transaction. -/
def inPhase (ph : LinkPhase) : State := ready.onPort .cp0 fun ps => { ps with phase := ph }

/-- A command with the check byte that closes its frame. -/
def closed (c : Byte → Instr) : Instr :=
  match commandFrameOf (c 0) with
  | some f => c (crc8 f.covered)
  | none => c 0

/-- The command arrives well checked on a port that reads it. -/
def accepts (c : Instr) (p : Port) (s : State) : Bool :=
  takesCommand s p && intakeFree s && match commandFrameOf c with
    | some f => decide (f.port = p) && f.chk == crc8 f.covered
    | none => false

theorem accepted {c : Instr} {p : Port} {s : State} (h : accepts c p s = true) : Accepted c p s := by
  unfold accepts at h
  rw [Bool.and_eq_true, Bool.and_eq_true, takesCommand_iff, intakeFree_iff] at h
  obtain ⟨⟨hr, hw⟩, h⟩ := h
  cases hf : commandFrameOf c with
  | none => simp [hf] at h
  | some f =>
    simp only [hf, Bool.and_eq_true, decide_eq_true_eq, beq_iff_eq] at h
    exact ⟨hr, hw, f.covered, by rw [hf, ← h.1, ← h.2]⟩

/-- The answer that CP0 holds after one event. -/
def answer (c : Instr) (s : State) : Option Reply :=
  match exec c s with
  | .next t => (t.port .cp0).reply
  | .fault _ | .refused _ => none

/-- One part of the state after one event. -/
def after {α : Type} (c : Instr) (s : State) (f : State → α) : Option α :=
  match exec c s with
  | .next t => some (f t)
  | .fault _ | .refused _ => none

/-! ### WellFormed: an ill-formed term for each check -/

theorem test_wf_cue_without_check : (Instr.cue .cp0 1 0x20 []).wellFormed = false := by decide +kernel
theorem test_wf_sceneLoad_without_check : (Instr.sceneLoad .cp0 0 1 [9, 9]).wellFormed = false := by decide +kernel
theorem test_wf_illegal_with_command_code : (Instr.illegal .cp0 0x20).wellFormed = false := by decide +kernel
theorem test_wf_streamFrame_that_is_break : (Instr.streamFrame .cp0 0xFF00 0 0).wellFormed = false := by decide +kernel
theorem test_wf_sample_beyond_width :
    (Instr.activeSample 3840 0 (.const ⟨0, 0, 0⟩)).wellFormed = false := by decide +kernel
theorem test_wf_sample_beyond_height :
    (Instr.activeSample 0 2160 (.const ⟨0, 0, 0⟩)).wellFormed = false := by decide +kernel
theorem test_wf_cue_with_check : (Instr.cue .cp0 1 0x20 [0]).wellFormed = true := by decide +kernel
theorem test_no_word_spells_a_command : decodeTableWord 8 0x20 = none := rfl

/-! ### Worked values of the manual -/

/-- Section 12.4: SELECT BUS PST 21 is closed by DCh, CUT by E0h, STATE READ by 07h, the crosspoint record
02h 12h by 54h, and the responses 00h and 40h by 00h and C7h. -/
theorem test_check_bytes : crc8 [0x10, 0x01, 0x15] = 0xDC ∧ crc8 [0x20] = 0xE0 ∧ crc8 [0x01] = 0x07
    ∧ crc8 [0x02, 0x12] = 0x54 ∧ crc8 [0x00] = 0x00 ∧ crc8 [0x40] = 0xC7 := by decide +kernel

/-- Section 5.1, the table of positions, and its mirror from the high end. -/
theorem test_lever_positions : [0, 1, 32, 33, 256, 512, 767, 1023].map (leverPosition .low)
      = [0, 4, 128, 132, 1025, 2050, 3070, 4096]
    ∧ leverPosition .high 1023 = 0 ∧ leverPosition .high 0 = 4096 := by decide +kernel

/-- Section 7.2, the two mixes at the limits; section 7.3, the table of clip and gain. -/
theorem test_mix_and_key : mixCode 200 800 2048 = 500 ∧ mixCode 800 200 4095 = 200
    ∧ shapeKey 600 100 512 = 4000 ∧ shapeKey 600 100 4095 = 4096 ∧ shapeKey 99 100 300 = 0
    ∧ shapeKey 1023 64 300 = 4096 ∧ shapeKey 500 64 0 = 0 := by decide +kernel

/-- Section 6.3: with E = 256 at P = 4095, T is 4350, and w = 4095 is left at 4080; with E = 0 at 0. -/
theorem test_wipe_coefficients : threshold 4095 256 = 4350 ∧ coefficient 256 (threshold 4095 256) 4095 = 4080
    ∧ coefficient 256 (threshold 4095 256) 4094 = 4096 ∧ coefficient 0 (threshold 4095 0) 4095 = 0 := by decide +kernel

/-- Section 8.4: the sources of TALLY READ from 120 in a window of 16, and from 40 in one of 32. -/
theorem test_tally_windows : (List.range 16).map (windowSource 16 120)
      = [120, 121, 122, 123, 124, 125, 126, 127, 112, 113, 114, 115, 116, 117, 118, 119]
    ∧ windowSource 32 40 23 = 63 ∧ windowSource 32 40 24 = 32 := by decide +kernel

/-- Section 11.4: after a grant to CP1, waiting commands are granted in the order CP2, CP0, CP1. -/
theorem test_grant_order : grantOrder .cp1 = [.cp2, .cp0, .cp1] := rfl

/-! ### Witnesses: the machine, its reset, frames and the link -/

/-- CP1 has a CUT waiting, and CP0 receives; CP2 was granted last. -/
def cutWaits : State := ready.onPort .cp1 fun ps =>
  { ps with phase := .awaiting, selectLow := true, waiting := [⟨false, [0x20]⟩] }

/-- CP0's stream frame 01h 40h A5h waits, its response lost, and the port receives the next frame. -/
def streamWaits (streaming : Bool) : State := ready.onPort .cp0 fun ps =>
  { ps with streaming := streaming, waiting := [⟨true, [0x01, 0x40, 0xA5]⟩] }

theorem witness_StepRunsFrontCommand : State.reset.pending = [] ∧ NothingWaits State.reset
    ∧ WaitsAs (.cut .cp1 0xE0) .cp1 ⟨false, [0x20]⟩
    ∧ WaitsAs (.streamFrame .cp0 0x200 0xA5 (crc8 [2, 0, 0xA5])) .cp0 ⟨true, [2, 0, 0xA5]⟩
    ∧ cutWaits.pending = [] ∧ (cutWaits.ports.get .cp1).waiting = ⟨false, [0x20]⟩ :: []
    ∧ [Port.cp0, .cp1, .cp2] = [.cp0] ++ .cp1 :: [.cp2] ∧ (cutWaits.ports.get .cp0).waiting = []
    ∧ (cutWaits.ports.get .cp0).phase = .receiving ∧ ¬NothingWaits cutWaits
    ∧ WaitsAs (.streamFrame .cp0 0x140 0xA5 (crc8 [1, 0x40, 0xA5])) .cp0 ⟨true, [1, 0x40, 0xA5]⟩
    ∧ ((streamWaits false).ports.get .cp0).waiting = ⟨true, [1, 0x40, 0xA5]⟩ :: []
    ∧ ((streamWaits false).ports.get .cp0).streaming = false :=
  ⟨rfl, fun q => by cases q <;> rfl, .inl ⟨rfl, by decide +kernel⟩,
    .inr ⟨rfl, 0x200, 0xA5, rfl, by decide +kernel, by decide +kernel⟩, rfl, rfl, rfl, rfl, rfl,
    fun h => (by cases h .cp1), .inr ⟨rfl, 0x140, 0xA5, rfl, by decide +kernel, by decide +kernel⟩, rfl, rfl⟩

/-- Section 11.3: the value of a stream frame that waits across a break of its port is still dealt with, and
the break's end of streaming and its answer stand; without the break the port stays streaming. -/
theorem test_break_outlasts_waiting_stream :
    after (.breakFrame .cp0) (streamWaits true) (fun t =>
      let u := grantNext t
      ((u.lever .cp0).value, (u.port .cp0).streaming, (u.port .cp0).reply, (u.port .cp0).waiting.length))
    = some (320, false, some ⟨.ok, []⟩, 0)
    ∧ ((grantNext (streamWaits true)).port .cp0).streaming = true := by decide +kernel

/-- Section 11.4: with CP0 last granted, commands waiting at CP1 and CP2 are granted in that order, and with
CP1 last granted CP2 comes first. -/
theorem test_rotating_grant :
    let both := (cutWaits.onPort .cp2 fun ps => { ps with waiting := [⟨false, [0x20]⟩] })
    (grantNext { both with lastGranted := .cp0 }).lastGranted = .cp1
    ∧ (grantNext (grantNext { both with lastGranted := .cp0 })).lastGranted = .cp2
    ∧ (grantNext { both with lastGranted := .cp1 }).lastGranted = .cp2
    ∧ ((grantNext both).port .cp1).reply = some ⟨.ok, []⟩ := by decide +kernel

/-- Section 11.8: an AUTO of CP0 and a CUT of CP1 wait, and CP2's cue is due at the switch point. -/
def threeMasters : State :=
  let waits := fun code => fun ps : PortState =>
    { ps with phase := .awaiting, selectLow := true, waiting := [⟨false, [code]⟩] }
  { (State.reset.onPort .cp0 (waits 0x21)).onPort .cp1 (waits 0x20) with
    rtg := { State.reset.rtg with counter := 1200 }
    cq := { State.reset.cq with entries := [⟨71, .cp2, 1201, 0x20, []⟩] } }

/-- Section 11.8: the cue first, then CP0 (BUSY), then CP1 (merged), which is last granted. -/
theorem test_three_masters :
    after (.switchPoint true) threeMasters (fun t =>
      let u := grantNext t
      let v := grantNext u
      (t.tc.main, (u.port .cp0).reply, (v.port .cp1).reply, v.tc.issuing.cp2 && v.tc.issuing.cp1, v.lastGranted))
    = some (.cut, some ⟨.busy, []⟩, some ⟨.ok, []⟩, true, .cp1) := by decide +kernel

theorem witness_ResetPinGivesPowerOnState : State.reset.pending = []
    ∧ (∀ p, (State.reset.ports.get p).selectLow = false)
    ∧ ∃ t, exec (.resetAssert 0) State.reset = .next t :=
  ⟨rfl, fun p => by cases p <;> rfl, _, rfl⟩

theorem witness_NothingActsWhileResetAsserted :
    { ready with resetLow := true }.resetLow = true ∧ actsInReset (.switchPoint true) = false := ⟨rfl, rfl⟩

theorem witness_WrongCheckByteIsAnsweredCheck :
    commandFrameOf (.cut .cp0 0xE1) = some ⟨.cp0, [0x20], 0xE1⟩ ∧ Reads ready .cp0
    ∧ (0xE1 : Byte) ≠ crc8 [0x20] := ⟨rfl, ⟨rfl, rfl, rfl⟩, by decide +kernel⟩

theorem test_wrong_check_byte : answer (.cut .cp0 0xE1) ready = some ⟨.check, []⟩ := by decide +kernel

theorem witness_RefusedCommandChangesOnlyItsResponse :
    Accepted (.selectBus .cp0 1 200 (crc8 [0x10, 1, 200])) .cp0 ready
    ∧ answer (.selectBus .cp0 1 200 (crc8 [0x10, 1, 200])) ready = some ⟨.param, []⟩ :=
  ⟨accepted (by decide +kernel), by decide +kernel⟩

theorem witness_LinkEventsMoveThePhase : State.reset.resetLow = false
    ∧ (State.reset.port .cp0).phase = .closed ∧ (State.reset.port .cp0).selectLow = false
    ∧ (ready.port .cp0).phase = .receiving ∧ ((inPhase .sending).port .cp0).phase = .sending
    ∧ ((inPhase .awaiting).port .cp0).phase = .awaiting ∧ ((inPhase .spent).port .cp0).phase = .spent
    ∧ Reads ready .cp0 ∧ isCommandCode 0xFF = false
    ∧ ((inPhase .closed).port .cp0).phase = .closed ∧ ((inPhase .closed).port .cp0).selectLow = true :=
  ⟨rfl, rfl, rfl, rfl, rfl, rfl, rfl, ⟨rfl, rfl, rfl⟩, by decide +kernel, rfl, rfl⟩

/-- An answer of CP0 waiting to be sent, with DONE set. -/
def answeredState : State := ready.onPort .cp0 fun ps =>
  { ps with phase := .awaiting, reply := some ⟨.ok, []⟩, flags := 2 }

theorem witness_ResponseCarriesStatusDataAndCheck : answeredState.resetLow = false
    ∧ (answeredState.port .cp0).phase = .awaiting ∧ (answeredState.port .cp0).reply = some ⟨.ok, []⟩
    ∧ (answeredState.port .cp0).flags.toNat < 1024 := ⟨rfl, rfl, rfl, by decide +kernel⟩

/-- Section 12.4: an OK with ATTN set is 40h C7h; the port shifts out FFh after it. -/
theorem test_response_bytes :
    after (.responseReady .cp0) answeredState (fun t => (List.range 3).map (shiftedOut t .cp0))
      = some [0x40, 0xC7, 0xFF] := by decide +kernel

theorem witness_StreamFramesAndTheBreak : ReadsStream readyStream .cp0 ∧ NothingWaits readyStream
    ∧ (0x0200 : Half).extractLsb' 8 8 ≠ 0xFF#8 ∧ (0xFF00 : Half).extractLsb' 8 8 = 0xFF#8
    ∧ (0 : Byte) ≠ crc8 (be16 0x0200 ++ [0xA5]) := ⟨⟨rfl, rfl, rfl⟩, fun q => by cases q <;> rfl, by decide +kernel, by decide +kernel, by decide +kernel⟩

theorem witness_NoticeAndPortSetupCommands : Accepted (closed (.noticeRead .cp0)) .cp0 ready
    ∧ Accepted (closed (.noticeMask .cp0 0x3FF)) .cp0 ready
    ∧ Accepted (closed (.noticeMask .cp0 0x400)) .cp0 ready
    ∧ Accepted (closed (.portSetup .cp0 1 0)) .cp0 ready
    ∧ Accepted (closed (.portSetup .cp0 2 1)) .cp0 ready :=
  ⟨accepted (by decide +kernel), accepted (by decide +kernel), accepted (by decide +kernel), accepted (by decide +kernel),
    accepted (by decide +kernel)⟩

/-- CP0 holds BKGD and the lever, and owns a cue. -/
def holding : State := { ready with
  mes := { ready.mes with locks := { ready.mes.locks with bkgd := some .cp0 } }
  lu := { ready.lu with holder := some .cp0 }
  cq := { ready.cq with entries := [⟨1, .cp0, 5, 0x20, []⟩], nextTag := 2 } }

theorem witness_PortResetClearsItsPort : Accepted (closed (.portReset .cp0)) .cp0 holding :=
  accepted (by decide +kernel)

theorem test_port_reset_frees :
    after (closed (.portReset .cp0)) holding (fun t =>
      (t.mes.locks.bkgd, t.lu.holder, t.cq.entries, flagSet (t.port .cp0).flags .locks))
    = some (none, none, [], true) := by decide +kernel

theorem witness_EngineResetAtOnce : Accepted (closed (.engineReset .cp0)) .cp0 holding :=
  accepted (by decide +kernel)

/-! ### Witnesses: locks -/

/-- CP1 holds SETUP. -/
def setupTaken : State :=
  { ready with mes := { ready.mes with locks := { ready.mes.locks with setup := some .cp1 } } }

theorem witness_LockIsAllOrNothing : Accepted (closed (.lock .cp0 0x7F)) .cp0 ready
    ∧ Accepted (closed (.lock .cp0 0x80)) .cp0 ready ∧ Accepted (closed (.lock .cp0 0)) .cp0 ready
    ∧ Accepted (closed (.lock .cp0 0x41)) .cp0 setupTaken :=
  ⟨accepted (by decide +kernel), accepted (by decide +kernel), accepted (by decide +kernel), accepted (by decide +kernel)⟩

theorem test_lock_outcomes : answer (closed (.lock .cp0 0x7F)) ready = some ⟨.ok, []⟩
    ∧ answer (closed (.lock .cp0 0x80)) ready = some ⟨.param, []⟩
    ∧ answer (closed (.lock .cp0 0xC1)) setupTaken = some ⟨.locked, []⟩ := by decide +kernel

theorem witness_UnlockFreesOwnResources : Accepted (closed (.unlock .cp0 1)) .cp0 holding
    ∧ Accepted (closed (.unlock .cp0 0x7F)) .cp0 holding
    ∧ Accepted (closed (.unlock .cp0 0x80)) .cp0 holding :=
  ⟨accepted (by decide +kernel), accepted (by decide +kernel), accepted (by decide +kernel)⟩

theorem test_unlock_leaves_anothers : answer (closed (.unlock .cp0 0x40)) setupTaken = some ⟨.ignored, []⟩ := by
  decide +kernel

theorem witness_HeldLockStaysUntilFreed :
    (∃ t, exec (closed (.unlock .cp0 1)) holding = .next t ∧ holding.mes.locks.get .bkgd = some .cp0
      ∧ t.mes.locks.get .bkgd ≠ some .cp0)
    ∧ Accepted (closed (.unlock .cp0 1)) .cp0 holding ∧ (1 : Byte).toNat < 128
    ∧ (1 : Byte).getLsbD (resourceBit .bkgd) = true
    ∧ Accepted (closed (.portReset .cp0)) .cp0 holding
    ∧ Accepted (closed (.engineReset .cp0)) .cp0 setupTaken ∧ heldByOther setupTaken .cp0 .setup = true
    ∧ Accepted (closed (.engineReset .cp0)) .cp0 holding ∧ heldByOther holding .cp0 .setup = false :=
  ⟨⟨_, rfl, rfl, by decide +kernel⟩, accepted (by decide +kernel), by decide +kernel, by decide +kernel, accepted (by decide +kernel),
    accepted (by decide +kernel), by decide +kernel, accepted (by decide +kernel), by decide +kernel⟩

theorem witness_LockTableChangeRaisesLocks :
    (∀ rsel, closed (.unlock .cp0 1) ≠ .resetAssert rsel)
    ∧ (∃ t, exec (closed (.unlock .cp0 1)) holding = .next t ∧ t.mes.locks ≠ holding.mes.locks)
    ∧ ∃ t, exec (closed (.unlock .cp0 1)) ready = .next t ∧ t.mes.locks = ready.mes.locks :=
  ⟨fun rsel h => (by cases h), ⟨_, rfl, by decide +kernel⟩, _, rfl, by decide +kernel⟩

/-! ### Witnesses: buses and setups -/

theorem witness_SelectBusWritesRequest : Accepted (.selectBus .cp0 1 21 0xDC) .cp0 ready
    ∧ Accepted (closed (.selectBus .cp0 9 127)) .cp0 ready
    ∧ Accepted (closed (.selectBus .cp0 10 128)) .cp0 ready :=
  ⟨accepted (by decide +kernel), accepted (by decide +kernel), accepted (by decide +kernel)⟩

theorem test_select_bus : answer (.selectBus .cp0 1 21 0xDC) ready = some ⟨.ok, []⟩
    ∧ after (.selectBus .cp0 1 21 0xDC) ready (fun t => (t.input .bgb).requested) = some 21
    ∧ answer (closed (.selectBus .cp0 10 0)) ready = some ⟨.param, []⟩ := by decide +kernel

theorem witness_SetNextAndSetRate : Accepted (closed (.setNext .cp0 31 1)) .cp0 ready
    ∧ Accepted (closed (.setNext .cp0 0 0)) .cp0 ready ∧ Accepted (closed (.setNext .cp0 32 2)) .cp0 ready
    ∧ Accepted (closed (.setRate .cp0 999)) .cp0 ready ∧ Accepted (closed (.setRate .cp0 1000)) .cp0 ready :=
  ⟨accepted (by decide +kernel), accepted (by decide +kernel), accepted (by decide +kernel), accepted (by decide +kernel),
    accepted (by decide +kernel)⟩

theorem test_set_rate : answer (closed (.setRate .cp0 1000)) ready = some ⟨.clamped, []⟩
    ∧ answer (closed (.setRate .cp0 30)) ready = some ⟨.ignored, []⟩
    ∧ after (closed (.setRate .cp0 999)) ready (fun t => t.mes.next.rate) = some 999 := by decide +kernel

theorem witness_KeyerSetupCommands : Accepted (closed (.keySetup .cp0 4 3 1023 4095 4096)) .cp0 ready
    ∧ Accepted (closed (.keySetup .cp0 5 4 1024 4096 4097)) .cp0 ready
    ∧ Accepted (closed (.keyCrop .cp0 1 1 1920 1921 1080 1081)) .cp0 ready
    ∧ Accepted (closed (.keyOrder .cp0 4 3 2 1)) .cp0 ready
    ∧ Accepted (closed (.keyOrder .cp0 4 4 2 1)) .cp0 ready :=
  ⟨accepted (by decide +kernel), accepted (by decide +kernel), accepted (by decide +kernel), accepted (by decide +kernel),
    accepted (by decide +kernel)⟩

theorem test_keyer_setups : answer (closed (.keySetup .cp0 4 3 1023 4095 4097)) ready = some ⟨.clamped, []⟩
    ∧ answer (closed (.keyCrop .cp0 1 1 0 1920 0 1081)) ready = some ⟨.clamped, []⟩
    ∧ answer (closed (.keyOrder .cp0 4 4 2 1)) ready = some ⟨.param, []⟩ := by decide +kernel

theorem witness_WipeMatteAndLimiterSetup :
    Accepted (closed (.wipeSetup .cp0 4 1024 16 1 4095 0 3)) .cp0 ready
    ∧ Accepted (closed (.wipeSetup .cp0 5 1025 0 17 4096 0 4)) .cp0 ready
    ∧ Accepted (closed (.matteSet .cp0 2 1023 0 512)) .cp0 ready
    ∧ Accepted (closed (.matteSet .cp0 3 1024 0 512)) .cp0 ready
    ∧ Accepted (closed (.limiterSetup .cp0 64 64 0 1023)) .cp0 ready
    ∧ Accepted (closed (.limiterSetup .cp0 65 64 0 1024)) .cp0 ready :=
  ⟨accepted (by decide +kernel), accepted (by decide +kernel), accepted (by decide +kernel), accepted (by decide +kernel),
    accepted (by decide +kernel), accepted (by decide +kernel)⟩

theorem test_wipe_setup_sets_the_mark :
    after (closed (.wipeSetup .cp0 4 1024 16 1 4095 0 3)) ready (fun t => (t.wg.reload, t.mes.next.wipe))
    = some (true, ⟨.diamond, 1024, 16, 1, 4095, 0, true, true⟩) := by decide +kernel

theorem witness_AlignProtectAndTimingSetup : Accepted (closed (.alignSetup .cp0 1 7)) .cp0 ready
    ∧ Accepted (closed (.alignSetup .cp0 0 8)) .cp0 ready ∧ Accepted (closed (.sceneProtect .cp0 16)) .cp0 ready
    ∧ Accepted (closed (.sceneProtect .cp0 17)) .cp0 ready ∧ Accepted (closed (.timingSetup .cp0 3 1)) .cp0 ready
    ∧ Accepted (closed (.timingSetup .cp0 4 2)) .cp0 ready :=
  ⟨accepted (by decide +kernel), accepted (by decide +kernel), accepted (by decide +kernel), accepted (by decide +kernel),
    accepted (by decide +kernel), accepted (by decide +kernel)⟩

/-! ### Witnesses: transition commands and the lever -/

theorem witness_CutAutoAndKeyCutPend : Accepted (.cut .cp0 0xE0) .cp0 ready
    ∧ Accepted (closed (.auto .cp0)) .cp0 ready ∧ Accepted (closed (.keyCut .cp0 4 1)) .cp0 ready
    ∧ Accepted (closed (.keyCut .cp0 5 2)) .cp0 ready :=
  ⟨accepted (by decide +kernel), accepted (by decide +kernel), accepted (by decide +kernel), accepted (by decide +kernel)⟩

/-- A record of a transition of the background, by a driver. -/
def record (d : Driver) (p0 r k : Nat) : InFlight := ⟨bkgdOnly, .mix, p0, r, k, d⟩

/-- A running auto transition at the k-th of R frames from 0. -/
def inAuto (r k : Nat) : State := { ready with
  tc := { ready.tc with mode := .auto, pos := autoPosition 0 r k, inFlight := some (record .auto 0 r k) } }

/-- A manual transition at a position, with CP1's lever at a value and holding or not. -/
def inManual (pos v : Nat) (holder : Option Port) : State := { ready with
  tc := { ready.tc with mode := .manual, pos := pos, inFlight := some (record .lever 0 0 0) }
  lu := { holder := holder, quiet := 0
          levers := ready.lu.levers.set .cp1 ⟨.low, v, leverPosition .low v, .none⟩ } }

theorem witness_LeverValueAndRelease :
    Accepted (closed (.lever .cp0 32 0)) .cp0 ready ∧ Accepted (closed (.lever .cp0 991 0xA5)) .cp0 ready
    ∧ Accepted (closed (.lever .cp0 33 0)) .cp0 ready ∧ Accepted (closed (.lever .cp0 990 0)) .cp0 ready
    ∧ ready.tc.mode = .idle ∧ ready.lu.holder = none ∧ lockedOut ready .cp0 (transResources ready) = false
    ∧ Accepted (closed (.lever .cp0 512 0)) .cp0 (inAuto 30 1) ∧ (inAuto 30 1).tc.mode = .auto
    ∧ Accepted (closed (.lever .cp0 512 0)) .cp0 (inManual 2050 512 (some .cp1))
    ∧ Accepted (closed (.lever .cp0 528 0)) .cp0 (inManual 2050 512 none)
    ∧ Accepted (closed (.lever .cp0 0 0)) .cp0 (inManual 2050 512 none)
    ∧ Accepted (closed (.lever .cp0 512 0)) .cp0 holding ∧ holding.lu.holder = some .cp0
    ∧ Accepted (closed (.leverRelease .cp0)) .cp0 holding :=
  ⟨accepted (by decide +kernel), accepted (by decide +kernel), accepted (by decide +kernel), accepted (by decide +kernel), rfl, rfl,
    by decide +kernel, accepted (by decide +kernel), rfl, accepted (by decide +kernel), accepted (by decide +kernel),
    accepted (by decide +kernel), accepted (by decide +kernel), rfl, accepted (by decide +kernel)⟩

theorem test_lever_outcomes : answer (closed (.lever .cp0 528 0)) (inManual 2050 512 none) = some ⟨.ok, []⟩
    ∧ answer (closed (.lever .cp0 0 0)) (inManual 2050 512 none) = some ⟨.pending, []⟩
    ∧ answer (closed (.lever .cp0 0 0)) (inManual 2050 512 (some .cp1)) = some ⟨.locked, []⟩
    ∧ answer (closed (.lever .cp0 0 0)) (inAuto 30 1) = some ⟨.busy, []⟩
    ∧ after (closed (.lever .cp0 33 0)) ready (fun t => t.lu.holder) = some (some .cp0) := by decide +kernel

/-! ### Witnesses: cues -/

theorem empty_queue_CueInv (c : Word) : CueInv c ready.cq where
  count := by decide +kernel
  tags := by decide +kernel
  distinct := by decide +kernel
  ahead := by intro e he; exact absurd he (by simp [ready, State.onPort, State.reset, State.powerOn])
  sorted := List.Pairwise.nil
  embedded := by decide +kernel
  nextTag := by decide +kernel
  failures := by intro p f hf; cases p <;> exact absurd hf (by simp [ready, State.onPort, State.reset, State.powerOn, PerPort.const, PerPort.get])

/-- A queue of 32 entries, all due at frame 5. -/
def fullQueue : State := { ready with cq := { ready.cq with
  entries := (List.range 32).map fun n => ⟨BitVec.ofNat 16 (n + 1), .cp1, 5, 0x20, []⟩, nextTag := 33 } }

/-- Next tag 65535 stands in the queue, and so does the tag 1 after it. -/
def tagTaken : State := { ready with cq := { ready.cq with
  entries := [⟨0xFFFF, .cp1, 5, 0x20, []⟩, ⟨1, .cp1, 5, 0x21, []⟩], nextTag := 0xFFFF } }

theorem tagTaken_CueInv : CueInv tagTaken.rtg.counter tagTaken.cq where
  count := by decide +kernel
  tags := by decide +kernel
  distinct := by decide +kernel
  ahead := by decide +kernel
  sorted := by decide +kernel
  embedded := by decide +kernel
  nextTag := by decide +kernel
  failures := by intro p f hf; cases p <;> cases hf

/-- Section 9.1: 65535 and 1 are in use, so the cue gets tag 2. -/
theorem test_next_free_tag : answer (closed fun c => .cue .cp0 6 0x20 [c]) tagTaken = some ⟨.ok, [0, 2]⟩ := by
  decide +kernel

theorem witness_CueIsQueuedByDistance :
    Accepted (closed fun c => .cue .cp0 1 0x20 [c]) .cp0 ready ∧ CueInv ready.rtg.counter ready.cq
    ∧ parseCue 0x20 [] = some .cut ∧ lockedOut ready .cp0 (cueResources ready .cut) = false
    ∧ Accepted (closed fun c => .cue .cp0 0 0x20 [c]) .cp0 ready
    ∧ Accepted (closed fun c => .cue .cp0 65535 0x20 [c]) .cp0 ready
    ∧ Accepted (closed fun c => .cue .cp0 65536 0x20 [c]) .cp0 ready
    ∧ Accepted (closed fun c => .cue .cp0 2147483648 0x20 [c]) .cp0 ready
    ∧ Accepted (closed fun c => .cue .cp0 2147483649 0x20 [c]) .cp0 ready
    ∧ Accepted (closed fun c => .cue .cp0 1 0x23 [0, 0, 0, c]) .cp0 ready
    ∧ parseCue 0x23 [0, 0, 0] = none ∧ cueInRange (.setNext 0 0) = false
    ∧ Accepted (closed fun c => .cue .cp0 6 0x20 [c]) .cp0 fullQueue
    ∧ fullQueue.cq.entries.length = 32
    ∧ Accepted (closed fun c => .cue .cp0 6 0x20 [c]) .cp0 tagTaken ∧ CueInv tagTaken.rtg.counter tagTaken.cq
    ∧ (∃ e ∈ tagTaken.cq.entries, e.tag = tagTaken.cq.nextTag) :=
  ⟨accepted (by decide +kernel), empty_queue_CueInv _, rfl, by decide +kernel, accepted (by decide +kernel), accepted (by decide +kernel),
    accepted (by decide +kernel), accepted (by decide +kernel), accepted (by decide +kernel), accepted (by decide +kernel), rfl,
    by decide +kernel, accepted (by decide +kernel), by decide +kernel, accepted (by decide +kernel), tagTaken_CueInv,
    by decide +kernel⟩

theorem test_cue_distances : answer (closed fun c => .cue .cp0 65535 0x20 [c]) ready = some ⟨.ok, [0, 1]⟩
    ∧ answer (closed fun c => .cue .cp0 65536 0x20 [c]) ready = some ⟨.param, []⟩
    ∧ answer (closed fun c => .cue .cp0 2147483648 0x20 [c]) ready = some ⟨.param, []⟩
    ∧ answer (closed fun c => .cue .cp0 2147483649 0x20 [c]) ready = some ⟨.late, []⟩
    ∧ answer (closed fun c => .cue .cp0 0 0x20 [c]) ready = some ⟨.late, []⟩
    ∧ answer (closed fun c => .cue .cp0 6 0x20 [c]) fullQueue = some ⟨.full, []⟩ := by decide +kernel

theorem holding_CueInv : CueInv holding.rtg.counter holding.cq where
  count := by decide +kernel
  tags := by decide +kernel
  distinct := by decide +kernel
  ahead := by decide +kernel
  sorted := by decide +kernel
  embedded := by decide +kernel
  nextTag := by decide +kernel
  failures := by intro p f hf; cases p <;> cases hf

theorem witness_CueCancelAndCueList : Accepted (closed (.cueCancel .cp0 0)) .cp0 holding
    ∧ Accepted (closed (.cueCancel .cp0 1)) .cp0 holding ∧ CueInv holding.rtg.counter holding.cq
    ∧ (∃ e ∈ holding.cq.entries, e.tag = 1) ∧ Accepted (closed (.cueCancel .cp0 9)) .cp0 holding
    ∧ (∀ e ∈ holding.cq.entries, e.tag ≠ 9) ∧ Accepted (closed (.cueList .cp0)) .cp0 holding :=
  ⟨accepted (by decide +kernel), accepted (by decide +kernel), holding_CueInv, by decide +kernel, accepted (by decide +kernel), by decide +kernel,
    accepted (by decide +kernel)⟩

theorem test_cue_list : answer (closed (.cueList .cp0)) holding
    = some ⟨.ok, [0, 0, 0, 1, 0, 1, 0, 0, 0, 0, 5, 0x20]⟩ := by decide +kernel

theorem witness_SetFrameCountPrunesCues : Accepted (closed (.setFrameCount .cp0 4)) .cp0 holding
    ∧ Accepted (closed (.setFrameCount .cp0 5)) .cp0 holding := ⟨accepted (by decide +kernel), accepted (by decide +kernel)⟩

/-- CP0's cue is due, and no other stands before it. -/
def due : State := { holding with rtg := { holding.rtg with counter := 5 } }

theorem witness_ReleasedCueActsAsItsPortsCommand : due.resetLow = false
    ∧ due.cq.entries = [] ++ ⟨1, .cp0, 5, 0x20, []⟩ :: [] ∧ (5 : Word) = due.rtg.counter
    ∧ parseCue 0x20 [] = some .cut := ⟨rfl, rfl, rfl, rfl⟩

theorem test_cue_release : after .cueRelease due (fun t => (t.cq.entries, t.tc.main, t.tc.issuing.cp0))
    = some ([], .cut, true) := by decide +kernel

/-! ### Witnesses: scenes -/

/-- A scene with a background part and an order part. -/
def smallScene : Scene := ⟨some ⟨10, 11⟩, none, none, some ⟨.k2, .k1, .k4, .k3⟩⟩

/-- A scene with all four parts, the last edges of the largest raster among them. -/
def fullScene : Scene where
  bkgd := some ⟨127, 0⟩
  keys := some (.const ⟨1, 2, ⟨.luma, true, 1023, 4095, 4096, true, 3840, 0, 2160, 0⟩, true⟩)
  trans := some ⟨⟨true, .const true⟩, .wipe, 999, ⟨.diamond, 1024, 16, 16, 4095, 4095, true, true⟩⟩
  order := some ⟨.k2, .k1, .k4, .k3⟩

/-- Slot 0 holds the small scene, slot 1 the full one. -/
def stored : State := setSlot 1 (some fullScene) (setSlot 0 (some smallScene) ready)

theorem witness_SceneWritersObeyProtection : Accepted (closed (.sceneSave .cp0 15 15)) .cp0 ready
    ∧ Accepted (closed (.sceneSave .cp0 16 16)) .cp0 ready
    ∧ Accepted (closed fun c => .sceneLoad .cp0 0 9 [10, 11, 2, 1, 4, 3, c]) .cp0 ready
    ∧ Accepted (closed (.sceneErase .cp0 0)) .cp0 stored
    ∧ Accepted (closed (.sceneErase .cp0 0)) .cp0 { stored with ss := { stored.ss with protect := 1 } } :=
  ⟨accepted (by decide +kernel), accepted (by decide +kernel), accepted (by decide +kernel), accepted (by decide +kernel),
    accepted (by decide +kernel)⟩

theorem test_scene_load_reads_the_parts :
    after (closed fun c => .sceneLoad .cp0 0 9 [10, 11, 2, 1, 4, 3, c]) ready (fun t => t.slot 0)
    = some (some smallScene) := by decide +kernel

theorem witness_SceneRecordsReadBackUnchanged : SceneInv fullScene
    ∧ sceneOf 9 [10, 11, 2, 1, 4, 3] = some smallScene ∧ [10, 11, 2, 1, 4, 3].length = partsLength 9 :=
  ⟨{ groups := .inl rfl
     keys := fun ks h => by
       cases h; intro k
       cases k <;> exact ⟨by decide +kernel, by decide +kernel, by decide +kernel, by decide +kernel, by decide +kernel, by decide +kernel, by decide +kernel⟩
     trans := fun t h => by
       cases h; exact ⟨by decide +kernel, by decide +kernel, ⟨by decide +kernel, by decide +kernel, by decide +kernel, by decide +kernel, by decide +kernel⟩⟩
     order := fun o h => by cases h; decide }, by decide +kernel, by decide +kernel⟩

theorem witness_SceneTallyAndClipReads : Accepted (closed (.sceneRead .cp0 15)) .cp0 stored
    ∧ Accepted (closed (.sceneRead .cp0 16)) .cp0 stored
    ∧ Accepted (closed (.tallyRead .cp0 127 128 3)) .cp0 ready
    ∧ Accepted (closed (.tallyRead .cp0 128 129 4)) .cp0 ready
    ∧ Accepted (closed (.tallyChanges .cp0)) .cp0 ready ∧ Accepted (closed (.clipRead .cp0)) .cp0 ready :=
  ⟨accepted (by decide +kernel), accepted (by decide +kernel), accepted (by decide +kernel), accepted (by decide +kernel),
    accepted (by decide +kernel), accepted (by decide +kernel)⟩

theorem test_scene_read : answer (closed (.sceneRead .cp0 0)) stored = some ⟨.ok, [9, 10, 11, 2, 1, 4, 3]⟩
    ∧ answer (closed (.sceneRead .cp0 15)) stored = some ⟨.ok, [0]⟩ := by decide +kernel

theorem witness_DirectRecallHandsOverTheScene : Accepted (closed (.sceneRecall .cp0 1 0)) .cp0 stored
    ∧ recordAt stored 1 = some fullScene ∧ Accepted (closed (.sceneRecall .cp0 15 0)) .cp0 stored
    ∧ recordAt stored 15 = none ∧ Accepted (closed (.sceneRecall .cp0 1 2)) .cp0 stored :=
  ⟨accepted (by decide +kernel), by decide +kernel, accepted (by decide +kernel), by decide +kernel,
    accepted (by decide +kernel)⟩

theorem test_recall_mode : answer (closed (.sceneRecall .cp0 1 2)) stored = some ⟨.param, []⟩ := by decide +kernel

theorem test_direct_recall_clamps : answer (closed (.sceneRecall .cp0 1 0)) stored = some ⟨.clamped, []⟩
    ∧ after (closed (.sceneRecall .cp0 1 0)) stored (fun t => (t.input .bga).requested) = some 127 := by decide +kernel

theorem witness_PreviewRecallLaysOutTheScene : Accepted (closed (.sceneRecall .cp0 0 1)) .cp0 stored
    ∧ recordAt stored 0 = some smallScene ∧ Accepted (closed (.sceneRecall .cp0 15 1)) .cp0 stored
    ∧ recordAt stored 15 = none := ⟨accepted (by decide +kernel), by decide +kernel, accepted (by decide +kernel), by decide +kernel⟩

theorem witness_StateTimingAndInputReads : Accepted (.stateRead .cp0 0x07) .cp0 ready
    ∧ Accepted (closed (.timingRead .cp0)) .cp0 ready ∧ Accepted (closed (.inputRead .cp0 9)) .cp0 ready
    ∧ Accepted (closed (.inputRead .cp0 10)) .cp0 ready :=
  ⟨accepted (by decide +kernel), accepted (by decide +kernel), accepted (by decide +kernel), accepted (by decide +kernel)⟩

/-- Section 12.5: an input after reset reports BLACK (7Ch), INTERNAL (5) and no advance. -/
theorem test_input_read : answer (closed (.inputRead .cp0 9)) ready
    = some ⟨.ok, [9, 0x7C, 0x7C, 0x7C, 5, 0xFF]⟩ := by decide +kernel

/-! ### Witnesses: timing, inputs and the switch point -/

/-- Enable is on, four lines are timed, and a marker stands `e` samples from its nominal place. -/
def marked (lock : LockState) (inWindow outCount miss : Nat) (e : Int) : State := { ready with rtg :=
  { ready.rtg with
    enable := true, lock := lock, inWindow := inWindow, outCount := outCount, miss := miss
    linePeriods := [2640, 2642, 2638, 2640], frameStart := 100000000, frameLen := 2970000
    refMarker := some (lineOne { ready.rtg with frameStart := 100000000, frameLen := 2970000 } + e).toNat } }

theorem witness_TimingEventsAreKept : ready.resetLow = false
    ∧ (marked .seeking 0 0 0 0).rtg.linePeriods = [2640, 2642, 2638, 2640]
    ∧ ready.rtg.linePeriods.length < 4 := ⟨rfl, rfl, by decide +kernel⟩

theorem test_measured_period : measuredPeriod (marked .seeking 0 0 0 0).rtg = 2640 := by decide +kernel

theorem witness_TimingSetupTakesEffect : ready.resetLow = false ∧ ready.rtg.pendingSetup = none
    ∧ { ready with rtg := { ready.rtg with pendingSetup := some ⟨2, true⟩ } }.rtg.pendingSetup
      = some ⟨2, true⟩ := ⟨rfl, rfl, rfl⟩

/-- A timing setup is pending. -/
def rasterPending (r : Raster) (on : Bool) : State := { ready with rtg := { ready.rtg with pendingSetup := some ⟨r, on⟩ } }

/-- One state for each case of the lock state machine, at the limits of its windows. -/
theorem witness_LockStateMachineAtSwitchPoint : ready.rtg.enable = false
    ∧ referenceCondition { ready.rtg with enable := true, miss := 2 } = .absent
    ∧ [8, 9, -8, 64, 65].map (fun e => (referenceCondition (marked .seeking 3 0 0 e).rtg,
        exactPhase (marked .seeking 3 0 0 e).rtg))
      = [(.valid, 8), (.valid, 9), (.valid, -8), (.valid, 64), (.valid, 65)]
    ∧ (marked .locked 0 1 0 9).rtg.lock = .locked ∧ (marked .locked 0 0 0 9).rtg.pendingSetup = none
    ∧ (rasterPending 2 true).rtg.pendingSetup = some ⟨2, true⟩ ∧ (2 : Raster) ≠ (rasterPending 2 true).rtg.raster
    ∧ (rasterPending 0 true).rtg.pendingSetup = some ⟨(rasterPending 0 true).rtg.raster, true⟩ := by decide +kernel

theorem test_lock_state_machine :
    after (.switchPoint true) (marked .seeking 3 0 0 8) (fun t => t.rtg.lock) = some .locked
    ∧ after (.switchPoint true) (marked .locked 0 1 0 9) (fun t => t.rtg.lock) = some .seeking
    ∧ after (.switchPoint true) { ready with rtg := { ready.rtg with enable := true, lock := .locked, miss := 2 } }
        (fun t => t.rtg.lock) = some .holdover
    ∧ after (.switchPoint true) (marked .seeking 0 0 0 65) (fun t => t.rtg.frameLen) = some 2970065 := by decide +kernel

theorem witness_IssueSendsOneBurst : ready.resetLow = false := rfl

/-- Section 2.3: source 18 issued on input 2 sends one record. -/
theorem test_issue_sends_a_record :
    after (.issue true) (request (.fill .k1) 18 ready) (fun t => burstBytes t) = some [0x02, 0x12, 0x54] := by
  decide +kernel

theorem witness_GoLiveMakesIssuedLive : ready.resetLow = false := rfl

/-- K1 is on air with an external fill whose frames start `lines` lines before the engine's, judged LATE before,
with a settle count. -/
def measuring (lines settle : Nat) : State :=
  let s := { ready with
    rtg := { ready.rtg with frameStart := 100000000, prevStart := 97030000, frameLen := 2970000 }
    tc := { ready.tc with onAir := ready.tc.onAir.set .k1 true } }
  s.setInput (.fill .k1) { s.input (.fill .k1) with
    requested := 18, issued := 18, live := 18, status := .late, lastJudged := .late, settle := settle
    marker := some ((lineOne s.rtg).toNat - 2640 * lines) }

theorem witness_SwitchPointJudgesInputs : (measuring 2 0).resetLow = false
    ∧ [0, 1, 6, 7, 16].map (fun n => measureInput (measuring n 0).rtg ((measuring n 0).input (.fill .k1)))
      = [some 0, some 1, some 6, some 7, some 15]
    ∧ ((measuring 2 1).input (.fill .k1)).settle = 1 ∧ (ready.input .bga).live = 124 := by decide +kernel

/-- Section 2.9: settled with a = 2 after LATE, the input is ALIGNED and raises INPUT; while it settles it raises
none, and its fault is judged all the same. -/
theorem test_judgement :
    let seen := fun t : State => ((t.input (.fill .k1)).status, (t.input (.fill .k1)).faulted, (t.port .cp2).flags)
    after (.switchPoint true) (measuring 2 0) seen = some (.aligned, false, 0x0009)
    ∧ after (.switchPoint true) (measuring 0 1) seen = some (.settling, true, 0x0001) := by decide +kernel

/-- The K1 fill is settled and aligned; the engine seeks a VALID reference that is `late` samples behind it. -/
def seeking (late : Nat) : State :=
  let s := measuring 2 0
  { s with rtg := { s.rtg with
    enable := true, lock := .seeking, linePeriods := [2640, 2640, 2640, 2640]
    refMarker := some ((lineOne s.rtg).toNat + late) } }

/-- Sections 1.4, 2.5: a phase error of 65 makes a crash-lock, after which the input settles; one of 64 does not. -/
theorem test_crash_lock_restarts_settling :
    let seen := fun t : State => ((t.input (.fill .k1)).status, (t.input (.fill .k1)).settle, t.rtg.frameLen)
    after (.switchPoint true) (seeking 64) seen = some (.aligned, 0, 2970000)
    ∧ after (.switchPoint true) (seeking 65) seen = some (.settling, 1, 2970065) := by decide +kernel

theorem witness_SwitchPointClosesClipsAndReleasesCues : holding.resetLow = false := rfl
theorem witness_SwitchPointPublishesLiveTally : ready.resetLow = false := rfl
theorem witness_SwitchPointCopiesNextToLive : ready.resetLow = false := rfl

/-- Section 8.3: the first switch point publishes BLACK on program and preview through BKGD. -/
theorem test_first_tally : after (.switchPoint true) ready (fun t => (t.tu.generation, t.tu.table[(124 : Source)]))
    = some (1, ⟨true, true, bkgdOnly, false⟩) := by decide +kernel

theorem witness_SwitchPointAdvancesTransition :
    (inAuto 3 1).resetLow = false ∧ (inAuto 3 1).tc.resetPending = false ∧ (inAuto 3 1).tc.main = .none
    ∧ (inAuto 3 1).tc.sceneCut = none ∧ (inAuto 3 1).tc.inFlight = some (record .auto 0 3 1)
    ∧ (inAuto 3 2).tc.inFlight = some (record .auto 0 3 2)
    ∧ [0, 1, 1022, 1023].map (fun v => ((inManual 9 v (some .cp1)).lu.levers.get .cp1).pos)
      = [0, 4, 4091, 4096]
    ∧ (inManual 9 0 (some .cp1)).lu.quiet + 1 < ((inManual 9 0 (some .cp1)).ports.get .cp1).quietLimit := by
  decide +kernel

theorem test_auto_advances : after (.switchPoint true) (inAuto 3 1) (fun t => (t.tc.mode, t.tc.pos))
      = some (.auto, 2730)
    ∧ after (.switchPoint true) (inAuto 3 2) (fun t => (t.tc.mode, t.tc.role)) = some (.idle, .bgb) := by decide +kernel

/-! ### Witnesses: the stages of the take -/

/-- A pending scene cut whose inputs are in flight, deferred a number of times. -/
def cutWaiting (n : Nat) : State :=
  let s := request (.fill .k1) 9 ready
  { s with tc := { s.tc with sceneCut := some ⟨s.mes.next.keyers, .const true, false, n⟩ } }

theorem witness_SceneCutAndKeyCutsApplied : ready.tc.sceneCut = none
    ∧ (cutWaiting 4).tc.sceneCut = some ⟨ready.mes.next.keyers, .const true, false, 4⟩
    ∧ { ready with tc := { ready.tc with keyCuts := (PerKeyer.const none).set .k2 (some ⟨true, 4⟩) } }.tc.keyCuts.get .k2
      = some ⟨true, 4⟩ ∧ (inFlightSelection ready).keyers.get .k2 = false := ⟨rfl, rfl, rfl, rfl⟩

theorem test_scene_cut_waits_four_times :
    after .sceneCutApply (cutWaiting 3) (fun t => t.tc.onAir) = some (.const false)
    ∧ after .sceneCutApply (cutWaiting 4) (fun t => t.tc.onAir) = some (.const true) := by decide +kernel

theorem witness_EngineResetAndQuietLimitAtTake : ready.tc.resetPending = false
    ∧ { ready with tc := { ready.tc with resetPending := true } }.tc.resetPending = true
    ∧ ready.lu.holder = none ∧ { holding.lu with quiet := 48 }.holder = some .cp0
    ∧ 48 + 1 < (holding.ports.get .cp0).quietLimit ∧ (holding.ports.get .cp0).quietLimit ≤ 49 + 1 := by decide +kernel

/-- A main action pending in a state. -/
def withMain (m : MainAction) (s : State) : State := { s with tc := { s.tc with main := m, issuing := onlyPort .cp0 } }

theorem witness_CutIsPerformedAndAutoStarts : (withMain .cut ready).tc.main = .cut
    ∧ (withMain .cut ready).tc.mode = .idle ∧ (withMain .cut (inAuto 3 1)).tc.mode ≠ .idle
    ∧ (withMain .cut (inAuto 3 1)).tc.inFlight = some (record .auto 0 3 1)
    ∧ (withMain .auto ready).tc.main = .auto ∧ (withMain .auto ready).tc.sceneCut = none := by decide +kernel

theorem test_cut_and_auto : after .cutPerform (withMain .cut ready) (fun t => (t.tc.role, t.tc.main))
      = some (.bgb, .none)
    ∧ after .autoStart (withMain .auto ready) (fun t => (t.tc.mode, t.tc.inFlight))
      = some (.auto, some (record .auto 0 30 0)) := by decide +kernel

theorem witness_TakeoverKeepsPositionAndSpeed : (withMain .auto (inManual 4095 512 none)).tc.main = .auto
    ∧ (withMain .auto (inManual 4095 512 none)).tc.mode = .manual
    ∧ (withMain .auto (inManual 4095 512 none)).tc.inFlight = some (record .lever 0 0 0)
    ∧ (withMain .auto (inManual 4095 512 none)).tc.sceneCut = none ∧ 4095 ≤ 4095 := by decide +kernel

theorem test_takeover_frames : takeoverFrames 4095 30 = 1 ∧ takeoverFrames 2048 30 = 15 ∧ takeoverFrames 0 30 = 30 := by
  decide +kernel

/-- IDLE with CP1 holding its lever at a value. -/
def leverHeld (v : Nat) : State := { ready with
  lu := { holder := some .cp1, quiet := 0
          levers := ready.lu.levers.set .cp1 ⟨.low, v, leverPosition .low v, .none⟩ } }

theorem witness_ManualStartAndCompletion : (leverHeld 0).tc.mode = .idle ∧ (leverHeld 0).lu.holder = some .cp1
    ∧ [0, 1, 1023].map (fun v => ((leverHeld v).lu.levers.get .cp1).pos) = [0, 4, 4096]
    ∧ startWaits (leverHeld 1) 0 = false ∧ startWaits (request .bga 9 (leverHeld 1)) 3 = true
    ∧ startWaits (request .bga 9 (leverHeld 1)) 4 = false ∧ (withMain .cut (leverHeld 1)).tc.main ≠ .none
    ∧ (inAuto 3 2).tc.inFlight = some (record .auto 0 3 2) ∧ (inManual 9 1023 (some .cp1)).tc.mode = .manual := by
  decide +kernel

theorem test_completion_flips_the_home_end :
    after .completion (inManual 9 1023 (some .cp1)) (fun t => (t.tc.role, t.lu.levers.get .cp1))
    = some (.bgb, ⟨.high, 1023, 0, .none⟩) := by decide +kernel

/-! ### Witnesses: the picture -/

/-- A regular frame that a switch point began. -/
def rendering : State := { ready with rtg := { ready.rtg with frameStart := 15840, frameLen := 2970000 } }

/-- The same frame, shortened by half by a crash-lock. -/
def shortened : State := { rendering with rtg := { rendering.rtg with frameLen := 1485000 } }

theorem witness_ActiveSampleIsLimitedAndCounted : rendering.resetLow = false ∧ 0 < rendering.rtg.frameStart
    ∧ 1919 < activeWidth rendering.rtg.raster ∧ 1079 < activeHeight rendering.rtg.raster
    ∧ frameSamples rendering.rtg.raster ≤ rendering.rtg.frameLen
    ∧ rendering.tc.inFlight = none ∧ rendering.tc.onAir = .const false
    ∧ ¬frameSamples shortened.rtg.raster ≤ shortened.rtg.frameLen ∧ ready.rtg.frameStart = 0 := by decide +kernel

/-- Section 7.7: wherever the picture lies in the frame, one cut to half outputs line 500 and not line 1079. -/
theorem test_shortened_frame : isActive shortened 0 500 = true ∧ isActive shortened 0 1079 = false := by
  obtain ⟨frame, line, height, width⟩ : frameSamples 0 = 2970000 ∧ lineSamples 0 = 2640
    ∧ activeHeight 0 = 1080 ∧ activeWidth 0 = 1920 := by decide +kernel
  have place := pictureLead_le 0
  rw [frame, line, height, width] at place
  have raster : shortened.rtg.raster = 0 := rfl
  have start : shortened.rtg.frameStart = 15840 := rfl
  have length : shortened.rtg.frameLen = 1485000 := rfl
  constructor
  · rw [isActive_iff, raster, start, length, sampleTime, frame, line, height, width]
    omega
  · rw [← Bool.not_eq_true, isActive_iff, raster, start, length, sampleTime, frame, line, height, width]
    omega

theorem test_black_sample :
    after (.activeSample 1918 0 (.const ⟨1023, 0, 0⟩)) rendering (fun t => (t.cmp.program, t.cmp.working))
    = some (some ⟨64, some (512, 512)⟩, 0) := by decide +kernel

theorem witness_CommandsLeaveThePictureAlone :
    betweenSwitchPoints (closed (.engineReset .cp0)) = true
    ∧ ∃ t, exec (closed (.engineReset .cp0)) holding = .next t := ⟨rfl, _, rfl⟩

theorem witness_BackgroundMixLiesBetween : (4096 : Nat) ≤ 4096 := le_refl _
theorem witness_CoefficientsStayInRange : ready.tc.pos ≤ 4096
    ∧ (ready.mes.live.keyers.get .k4).opacity ≤ 4096 := by decide +kernel
theorem witness_WipeCoefficientIsPureAtBothEnds : WipeInv ⟨.diamond, 1024, 16, 1, 4095, 0, true, true⟩ :=
  ⟨by decide +kernel, by decide +kernel, by decide +kernel, by decide +kernel, by decide +kernel⟩
theorem witness_PositionsReachTheirEndsExactly : (1023 : Nat) ≤ 1023 ∧ (4095 : Nat) ≤ 4095 ∧ 998 < 999 := by decide +kernel

/-! ### The invariants: a state in the middle of an auto transition -/

/-- An auto transition at frame 1 of 3, a stored scene, CP0's cue two frames ahead, a CUT waiting. -/
def busy : State := { setSlot 0 (some smallScene) (inAuto 3 1) with
  pending := [closed (.cut .cp0)]
  rtg := { ready.rtg with counter := 3 }
  cq := holding.cq }

theorem default_CopyInv : CopyInv 0 ready.mes.next where
  keyers k := by cases k <;> exact ⟨by decide +kernel, by decide +kernel, by decide +kernel, by decide +kernel, by decide +kernel, by decide +kernel, by decide +kernel⟩
  order := by decide +kernel
  selection := by decide +kernel
  rate := by decide +kernel
  wipe := ⟨by decide +kernel, by decide +kernel, by decide +kernel, by decide +kernel, by decide +kernel⟩
  limiter := ⟨by decide +kernel, by decide +kernel⟩

theorem smallScene_SceneInv : SceneInv smallScene where
  groups := .inl rfl
  keys := by intro _ h; cases h
  trans := by intro _ h; cases h
  order := by intro o h; cases h; decide

/-- The witness of the five statements about every step: `busy` meets every invariant, and its step answers a
next state. -/
theorem witness_StepKeeps : Inv busy ∧ ∃ t, step busy = .next t := by
  refine ⟨⟨?_, ?_, ?_, ?_, ?_, ?_, ?_⟩, _, rfl⟩
  · exact ⟨by decide +kernel, by decide +kernel, by decide +kernel, by decide +kernel, by decide +kernel, by decide +kernel, by decide +kernel, by decide +kernel, by decide +kernel⟩
  · refine ⟨fun i => ?_, by decide +kernel, fun i src h => ?_, List.Pairwise.nil, by decide +kernel, by decide +kernel⟩
    · rcases i with _ | _ | (_ | _ | _ | _) | (_ | _ | _ | _) <;>
        exact ⟨by decide +kernel, fun a h => (by cases h), by decide +kernel⟩
    · rcases i with _ | _ | (_ | _ | _ | _) | (_ | _ | _ | _) <;> cases h
  · refine ⟨default_CopyInv, default_CopyInv, fun c h => (by cases h), fun n sc h => ?_, by decide +kernel⟩
    have hs : ∀ n, n = 0 ∨ busy.slot n = none := by decide
    rcases hs n with rfl | hn
    · cases h; exact smallScene_SceneInv
    · rw [hn] at h; cases h
  · refine ⟨by decide +kernel, by decide +kernel, by decide +kernel, fun f h => ?_, by decide +kernel, by decide +kernel, fun k c h => ?_,
      fun c h => (by cases h), by decide +kernel, by decide +kernel, by decide +kernel, fun p => ?_, fun p h => ?_⟩
    · cases h; exact ⟨by decide +kernel, by decide +kernel, by decide +kernel⟩
    · cases k <;> cases h
    · cases p <;> exact ⟨by decide +kernel, by decide +kernel⟩
    · cases p <;> cases h
  · exact ⟨by decide +kernel, fun p => by cases p <;> decide⟩
  · exact ⟨by decide +kernel, by decide +kernel, by decide +kernel, by decide +kernel, by decide +kernel, by decide +kernel, by decide +kernel,
      fun p f h => (by cases p <;> cases h)⟩
  · intro p
    cases p <;> exact ⟨by decide +kernel, by decide +kernel, by decide +kernel, by decide +kernel, by decide +kernel, by decide +kernel, by decide +kernel, by decide +kernel⟩

end Sys2Proof.Machine.Tests
end

section
/-!
SUPPORT. What the rows do to the lock table and to the LOCKS flags (section 3.6), and the statements about
both. The two are read together, as a `LockView`. Each operation of the model either leaves the view as it
was, or writes the table by `LockView.write`, which raises LOCKS exactly when the table changes (R53), or
clears the flags of one port. `LockEffect` collects what each row can do, and the statements follow from it.
-/

namespace Sys2Proof.Machine

/-! ### The lock table and the LOCKS flags together -/

/-- The lock table, and whether each port's LOCKS flag is set. -/
structure LockView where
  locks : PerResource (Option Port)
  raised : PerPort Bool

/-- The lock view of a state. -/
def State.lockView (s : State) : LockView :=
  ⟨s.mes.locks, s.ports.map fun ps => flagSet ps.flags .locks⟩

/-- The view once the lock table is written: LOCKS is raised to all ports if that changes it (R53). -/
def LockView.write (v : LockView) (locks : PerResource (Option Port)) : LockView :=
  ⟨locks, if locks = v.locks then v.raised else .const true⟩

/-- The view once a port's flags are cleared. -/
def LockView.clear (v : LockView) (p : Port) : LockView := ⟨v.locks, v.raised.set p false⟩

@[simp] theorem lockView_locks (s : State) : s.lockView.locks = s.mes.locks := rfl

@[simp] theorem lockView_raised (s : State) (p : Port) :
    s.lockView.raised.get p = flagSet (s.ports.get p).flags .locks := by simp [State.lockView]

theorem LockView.write_same (v : LockView) : v.write v.locks = v := by simp [LockView.write]

/-- The view of a state whose table and LOCKS flags are those of a view. -/
theorem lockView_eq {s : State} {v : LockView} (hl : s.mes.locks = v.locks)
    (hr : ∀ p, flagSet (s.ports.get p).flags .locks = v.raised.get p) : s.lockView = v := by
  obtain ⟨locks, raised⟩ := v
  have hp : (s.ports.map fun ps => flagSet ps.flags .locks) = raised :=
    PerPort.ext_get fun p => by simpa using hr p
  simp only [State.lockView, hp] at hl ⊢
  rw [hl]

/-- The same table and the same ports make the same view. -/
theorem lockView_congr {s t : State} (hl : t.mes.locks = s.mes.locks) (hp : t.ports = s.ports) :
    t.lockView = s.lockView := by
  simp only [State.lockView, hl, hp]

/-! ### Ports, notices and answers -/

/-- A port's state replaced by one with the same LOCKS flag. -/
theorem setPort_lockView (s : State) (p : Port) {ps : PortState}
    (h : flagSet ps.flags .locks = flagSet (s.ports.get p).flags .locks) :
    (s.setPort p ps).lockView = s.lockView := by
  refine lockView_eq rfl fun q => ?_
  by_cases hq : q = p
  · subst hq; simp [h]
  · simp [hq]

/-- A port's state replaced by one with no flag set. -/
theorem setPort_lockView_clear (s : State) (p : Port) {ps : PortState} (h : ps.flags = 0) :
    (s.setPort p ps).lockView = s.lockView.clear p := by
  refine lockView_eq rfl fun q => ?_
  by_cases hq : q = p
  · subst hq; simp [h, LockView.clear, flagSet]
  · simp [hq, LockView.clear]

theorem flagSet_setFlag_locks {n : Notice} (hn : n ≠ .locks) (word : Half) :
    flagSet (setFlag word n) .locks = flagSet word .locks := by
  simp [flagSet_setFlag, hn.symm]

theorem raiseTo_lockView {n : Notice} (hn : n ≠ .locks) (p : Port) (s : State) :
    (raiseTo n p s).lockView = s.lockView :=
  setPort_lockView s p (flagSet_setFlag_locks hn _)

theorem raiseAll_lockView {n : Notice} (hn : n ≠ .locks) (s : State) :
    (raiseAll n s).lockView = s.lockView :=
  lockView_eq rfl fun p => by simp [flagSet_setFlag_locks hn]

theorem raiseAllWhen_lockView {n : Notice} (hn : n ≠ .locks) (c : Bool) (s : State) :
    (raiseAllWhen c n s).lockView = s.lockView := by
  rcases raiseAllWhen_cases c n s with ⟨-, e⟩ | ⟨-, e⟩ <;> rw [e]
  exact raiseAll_lockView hn s

theorem raiseEach_lockView {n : Notice} (hn : n ≠ .locks) (pick : Port → Bool) (s : State) :
    (raiseEach n pick s).lockView = s.lockView := by
  refine lockView_eq rfl fun p => ?_
  simp only [raiseEach, PerPort.get_build, lockView_raised]
  split
  · exact flagSet_setFlag_locks hn _
  · rfl

theorem reply_lockView (p : Port) (o : CmdOutcome) (d : List Byte) (s : State) :
    (reply p o d s).lockView = s.lockView := setPort_lockView s p rfl

theorem joinWaiting_lockView (p : Port) (f : WaitingFrame) (s : State) :
    (joinWaiting p f s).lockView = s.lockView := setPort_lockView s p rfl

theorem setStreaming_lockView (p : Port) (on : Bool) (s : State) :
    (setStreaming p on s).lockView = s.lockView := setPort_lockView s p rfl

theorem closePort_lockView (p : Port) (s : State) :
    (mapPort p closePort s).lockView = s.lockView := setPort_lockView s p rfl

theorem formResponse_flags (ps : PortState) : (formResponse ps).flags = ps.flags := by
  unfold formResponse; split <;> rfl

theorem takeBreak_lockView (p : Port) (s : State) : (takeBreak p s).lockView = s.lockView :=
  (reply_lockView p _ _ _).trans (setStreaming_lockView p false s)

theorem selectFallWork_lockView (p : Port) (s : State) : (selectFallWork p s).lockView = s.lockView := by
  unfold selectFallWork
  split_ifs
  · exact setPort_lockView s p rfl
  · exact setPort_lockView s p rfl
  · rfl

theorem transactionEndWork_lockView (p : Port) (s : State) :
    (transactionEndWork p s).lockView = s.lockView := by
  unfold transactionEndWork
  split_ifs
  · exact setPort_lockView s p rfl
  · exact closePort_lockView p s
  · rfl

/-- A conditional change that keeps the view keeps it either way. -/
theorem ite_lockView {c : Prop} [Decidable c] {s t : State} (h : t.lockView = s.lockView) :
    (if c then t else s).lockView = s.lockView := by
  split
  · exact h
  · rfl

theorem unlessReset_lockView {f : State → State} (h : ∀ s, (f s).lockView = s.lockView) (s : State) :
    (unlessReset f s).lockView = s.lockView := by
  unfold unlessReset
  split
  · rfl
  · exact h s

/-- Folding an operation that keeps the view keeps it. -/
theorem foldl_lockView {α : Type} {f : State → α → State}
    (h : ∀ s a, (f s a).lockView = s.lockView) (l : List α) (s : State) :
    (l.foldl f s).lockView = s.lockView := by
  induction l generalizing s with
  | nil => rfl
  | cons a l ih => exact (ih _).trans (h s a)

/-! ### The commands that leave the locks alone -/

theorem checked_lockView {p : Port} {rs : List Resource} {ok : Bool} {s : State} {rest : Answer}
    (h : rest.state.lockView = s.lockView) : (checked p rs ok s rest).state.lockView = s.lockView := by
  rcases checked_cases p rs ok s rest with ⟨-, e⟩ | ⟨-, -, e⟩ | ⟨-, -, e⟩ <;> rw [e]
  · rfl
  · rfl
  · exact h

theorem slotChecked_lockView {slot : Byte} {ok : Bool} {s : State} {rest : Answer}
    (h : rest.state.lockView = s.lockView) :
    (slotChecked slot ok s rest).state.lockView = s.lockView := by
  rcases slotChecked_cases slot ok s rest with ⟨-, e⟩ | ⟨-, -, e⟩ | ⟨-, -, e⟩ <;> rw [e]
  · rfl
  · rfl
  · exact h

theorem unlessSame_lockView {b : Bool} {s t : State} (h : t.lockView = s.lockView) :
    (unlessSame b t s).state.lockView = s.lockView := by
  rcases unlessSame_cases b t s with ⟨-, e⟩ | ⟨-, e⟩ <;> rw [e]
  · rfl
  · exact h

theorem SameBeyondRequests.lockView {s t : State} (h : SameBeyondRequests s t) :
    t.lockView = s.lockView := lockView_congr h.locks h.ports

theorem dealCueCommand_lockView (c : CueCommand) (p : Port) (s : State) :
    (dealCueCommand c p s).state.lockView = s.lockView := (dealCueCommand_same c p s).lockView

theorem dealInputRead_lockView (input : Byte) (s : State) :
    (dealInputRead input s).state.lockView = s.lockView := by
  unfold dealInputRead; split <;> rfl

theorem dealTallyRead_lockView (start count window : Byte) (s : State) :
    (dealTallyRead start count window s).state.lockView = s.lockView := by
  unfold dealTallyRead; split <;> rfl

theorem dealSceneRead_lockView (slot : Byte) (s : State) :
    (dealSceneRead slot s).state.lockView = s.lockView := by
  unfold dealSceneRead
  split
  · split <;> rfl
  · rfl

theorem dealLimiterSetup_lockView (yLo yHi cLo cHi : Half) (p : Port) (s : State) :
    (dealLimiterSetup yLo yHi cLo cHi p s).state.lockView = s.lockView :=
  checked_lockView (unlessSame_lockView rfl)

theorem dealAlignSetup_lockView (lMin lMax : Byte) (p : Port) (s : State) :
    (dealAlignSetup lMin lMax p s).state.lockView = s.lockView :=
  checked_lockView (unlessSame_lockView rfl)

theorem dealTimingSetup_lockView (raster enable : Byte) (p : Port) (s : State) :
    (dealTimingSetup raster enable p s).state.lockView = s.lockView := by
  refine checked_lockView ?_
  split
  · dsimp only
    split_ifs <;> rfl
  · rfl

theorem losePickups_lockView (spared : Option Port) (s : State) :
    (losePickups spared s).lockView = s.lockView :=
  raiseEach_lockView (by decide) _ s

theorem idleValue_lockView (p : Port) (v : Nat) (s : State) :
    (idleValue p v s).state.lockView = s.lockView := by
  unfold idleValue; split <;> rfl

theorem manualValue_lockView (p : Port) (v : Nat) (s : State) :
    (manualValue p v s).state.lockView = s.lockView := by
  unfold manualValue
  dsimp only
  split
  · exact losePickups_lockView _ _
  · rfl

theorem dealLeverValue_lockView (field : Half) (p : Port) (s : State) :
    (dealLeverValue field p s).state.lockView = s.lockView := by
  refine checked_lockView ?_
  dsimp only
  split
  · rfl
  · exact idleValue_lockView p _ s
  · exact manualValue_lockView p _ s
  · split <;> rfl
  · split <;> rfl

theorem dealLever_lockView (field : Half) (mode : Byte) (p : Port) (s : State) :
    (dealLever field mode p s).state.lockView = s.lockView := by
  unfold dealLever
  dsimp only
  split
  · exact (setStreaming_lockView p _ _).trans (dealLeverValue_lockView field p s)
  · exact dealLeverValue_lockView field p s

theorem dealStream_lockView (value : Half) (mode : Byte) (p : Port) (s : State) :
    (dealStream value mode p s).state.lockView = s.lockView := by
  unfold dealStream
  dsimp only
  split
  · exact dealLeverValue_lockView value p s
  · exact (setStreaming_lockView p _ _).trans (dealLeverValue_lockView value p s)

theorem dealLeverRelease_lockView (p : Port) (s : State) :
    (dealLeverRelease p s).state.lockView = s.lockView := by
  unfold dealLeverRelease; split <;> rfl

theorem dealCue_lockView (target : Word) (code : Byte) (args : List Byte) (p : Port) (s : State) :
    (dealCue target code args p s).state.lockView = s.lockView := by
  unfold dealCue
  dsimp only
  split
  · rfl
  · refine checked_lockView ?_
    split_ifs <;> rfl

theorem dealCueCancel_lockView (tag : Half) (p : Port) (s : State) :
    (dealCueCancel tag p s).state.lockView = s.lockView := by
  unfold dealCueCancel
  split
  · rfl
  · split
    · rfl
    · split <;> rfl

theorem dealSceneSave_lockView (slot mask : Byte) (s : State) :
    (dealSceneSave slot mask s).state.lockView = s.lockView := by
  refine slotChecked_lockView ?_
  split <;> rfl

theorem dealSceneLoad_lockView (slot mask : Byte) (parts : List Byte) (s : State) :
    (dealSceneLoad slot mask parts s).state.lockView = s.lockView := by
  refine slotChecked_lockView ?_
  split <;> rfl

theorem dealSceneErase_lockView (slot : Byte) (s : State) :
    (dealSceneErase slot s).state.lockView = s.lockView := by
  refine slotChecked_lockView ?_
  split
  · exact unlessSame_lockView rfl
  · rfl

theorem dealSceneProtect_lockView (count : Byte) (p : Port) (s : State) :
    (dealSceneProtect count p s).state.lockView = s.lockView :=
  checked_lockView (unlessSame_lockView rfl)

theorem dropCues_lockView (keep : CueEntry → Bool) (s : State) :
    (dropCues keep s).lockView = s.lockView := raiseEach_lockView (by decide) _ _

theorem dealSetFrameCount_lockView (value : Word) (p : Port) (s : State) :
    (dealSetFrameCount value p s).state.lockView = s.lockView :=
  checked_lockView (dropCues_lockView _ _)

theorem dealPortSetup_lockView (format quiet : Byte) (p : Port) (s : State) :
    (dealPortSetup format quiet p s).state.lockView = s.lockView := by
  unfold dealPortSetup
  split
  · rfl
  · split
    · rfl
    · exact unlessSame_lockView (setPort_lockView s p rfl)

theorem dealNoticeMask_lockView (mask : Half) (p : Port) (s : State) :
    (dealNoticeMask mask p s).state.lockView = s.lockView := by
  unfold dealNoticeMask
  split
  · rfl
  · exact unlessSame_lockView (setPort_lockView s p rfl)

theorem dealNoticeRead_lockView (p : Port) (s : State) :
    (dealNoticeRead p s).state.lockView = s.lockView.clear p := setPort_lockView_clear s p rfl

/-! ### The switch point leaves the locks alone -/

theorem releaseHoldUnless_lockView (exempt : Port → Bool) (s : State) :
    (releaseHoldUnless exempt s).lockView = s.lockView := by
  rcases releaseHoldUnless_cases exempt s with ⟨-, e⟩ | ⟨h, -, e⟩ <;> rw [e]
  show (if exempt h then s else raiseTo .leverLost h s).lockView = s.lockView
  split
  · rfl
  · exact raiseTo_lockView (by decide) h s

theorem quietStep_lockView (s : State) : (quietStep s).lockView = s.lockView := by
  rcases quietStep_cases s with ⟨-, e⟩ | ⟨h, -, ⟨-, e⟩ | ⟨-, e⟩⟩ <;> rw [e]
  · rfl
  · exact raiseTo_lockView (by decide) h s

theorem leaveManual_lockView (s : State) : (leaveManual s).lockView = s.lockView := by
  unfold leaveManual
  split
  · exact losePickups_lockView _ s
  · rfl
  · rfl

theorem toIdle_lockView (s : State) : (toIdle s).lockView = s.lockView := leaveManual_lockView s

theorem applyEngineReset_lockView (s : State) : (applyEngineReset s).lockView = s.lockView :=
  ite_lockView (toIdle_lockView s)

theorem sceneCutStage_lockView (s : State) : (sceneCutStage s).lockView = s.lockView := by
  unfold sceneCutStage
  split
  · rfl
  · split <;> rfl

theorem behindSceneCut_lockView {s : State} {f : State → State} (h : (f s).lockView = s.lockView) :
    (behindSceneCut s f).lockView = s.lockView := by
  unfold behindSceneCut
  split
  · rfl
  · exact h

theorem keyCutStage_lockView (k : Keyer) (s : State) : (keyCutStage k s).lockView = s.lockView := by
  unfold keyCutStage
  split
  · rfl
  · split_ifs <;> rfl

theorem keyCutStages_lockView (s : State) : (keyCutStages s).lockView = s.lockView :=
  behindSceneCut_lockView (by simp only [keyCutStage_lockView])

theorem complete_lockView (c : Completing) (s : State) : (complete c s).lockView = s.lockView := by
  have toggled : (toggleDirection c.type s).lockView = s.lockView := by
    unfold toggleDirection; split <;> rfl
  have flipped (u : State) : (flipHome u).lockView = u.lockView := lockView_congr (by simp) (by simp)
  unfold complete
  refine (raiseAll_lockView (by decide) _).trans ?_
  show (if c.byLever then flipHome _ else _).lockView = _
  exact (ite_lockView (flipped _)).trans ((toIdle_lockView _).trans toggled)

theorem finish_lockView (w : StageWork) : (finish w).lockView = w.state.lockView := by
  unfold finish
  split
  · exact complete_lockView _ _
  · rfl

theorem releaseForMain_lockView (s : State) : (releaseForMain s).lockView = s.lockView :=
  releaseHoldUnless_lockView _ s

theorem cutStage_lockView (s : State) : (cutStage s).state.lockView = s.lockView := by
  unfold cutStage
  split
  · split
    · rfl
    · exact releaseForMain_lockView s
  · exact releaseForMain_lockView s
  · rfl

theorem autoStage_lockView (s : State) : (autoStage s).state.lockView = s.lockView := by
  unfold autoStage
  split
  · split
    · rfl
    · split
      · exact releaseForMain_lockView s
      · exact releaseForMain_lockView s
  · rfl

theorem takeoverStage_lockView (s : State) : (takeoverStage s).state.lockView = s.lockView := by
  unfold takeoverStage
  split
  · dsimp only
    split
    · exact releaseForMain_lockView s
    · exact (leaveManual_lockView _).trans (releaseForMain_lockView s)
  · rfl

theorem mainStage_lockView (s : State) : (mainStage s).state.lockView = s.lockView := by
  unfold mainStage
  split
  · rfl
  · split
    · rfl
    · exact cutStage_lockView s
    · exact takeoverStage_lockView s
    · exact autoStage_lockView s

theorem autoAdvance_lockView (s : State) : (autoAdvance s).state.lockView = s.lockView := by
  unfold autoAdvance
  split
  · rfl
  · dsimp only
    split <;> rfl

theorem leverAdvance_lockView (s : State) : (leverAdvance s).state.lockView = s.lockView := by
  unfold leverAdvance
  split
  · rfl
  · dsimp only
    split_ifs
    · exact toIdle_lockView s
    · rfl
    · rfl

theorem manualStage_lockView (s : State) : (manualStage s).state.lockView = s.lockView := by
  unfold manualStage startManual
  split
  · dsimp only
    split_ifs <;> rfl
  · rfl

theorem advanceStage_lockView (s : State) : (advanceStage s).state.lockView = s.lockView := by
  unfold advanceStage
  split
  · exact autoAdvance_lockView s
  · exact leverAdvance_lockView s
  · exact manualStage_lockView s

theorem laterStages_lockView (s : State) : (laterStages s).lockView = s.lockView := by
  unfold laterStages
  dsimp only
  split
  · exact (finish_lockView _).trans ((advanceStage_lockView _).trans (mainStage_lockView s))
  · exact (finish_lockView _).trans (mainStage_lockView s)

theorem frameTake_lockView (s : State) : (frameTake s).lockView = s.lockView := by
  rw [frameTake, laterStages_lockView, keyCutStages_lockView, sceneCutStage_lockView,
    applyEngineReset_lockView]

theorem releaseEntry_lockView (s : State) (e : CueEntry) : (releaseEntry s e).lockView = s.lockView := by
  have answered : (releaseAnswer e s).state.lockView = s.lockView := by
    unfold releaseAnswer
    split
    · exact dealCueCommand_lockView _ _ s
    · rfl
  unfold releaseEntry
  dsimp only
  split
  · exact raiseTo_lockView (by decide) _ _
  · exact answered

theorem releaseDue_lockView (s : State) : (releaseDue s).lockView = s.lockView :=
  foldl_lockView releaseEntry_lockView _ _

theorem releaseFirst_lockView (s : State) : (releaseFirst s).lockView = s.lockView := by
  unfold releaseFirst
  split
  · exact releaseEntry_lockView _ _
  · rfl

theorem issueAll_lockView (xready : Bool) (s : State) : (issueAll xready s).lockView = s.lockView :=
  lockView_congr (by simp) (by simp)

theorem settleAll_lockView (directive : Bool) (s : State) :
    (settleAll directive s).lockView = s.lockView := lockView_congr (by simp) (by simp)

theorem inputsSwitch_lockView (r : Rtg) (xready : Bool) (s : State) :
    (inputsSwitch r xready s).lockView = s.lockView :=
  (issueAll_lockView xready _).trans (settleAll_lockView _ _)

theorem clampCropsWhen_lockView (changed : Bool) (s : State) :
    (clampCropsWhen changed s).lockView = s.lockView := ite_lockView rfl

theorem setupSwitch_lockView (changed : Bool) (s : State) :
    (setupSwitch changed s).lockView = s.lockView :=
  (clampCropsWhen_lockView changed _).trans (lockView_congr (by simp) (by simp))

theorem publishTally_lockView (s : State) : (publishTally s).lockView = s.lockView := by
  unfold publishTally
  dsimp only
  split
  · rfl
  · exact raiseAll_lockView (by decide) _

theorem inputNotice_lockView (before : PerInput InputRec) (s : State) :
    (inputNotice before s).lockView = s.lockView := raiseAllWhen_lockView (by decide) _ s

theorem timingSwitch_lockView (s : State) : (timingSwitch s).lockView = s.lockView :=
  raiseAllWhen_lockView (by decide) _ _

theorem closeClipFrame_lockView (s : State) : (closeClipFrame s).lockView = s.lockView :=
  raiseAllWhen_lockView (by decide) _ _

theorem switchPointWork_lockView (xready : Bool) (s : State) :
    (switchPointWork xready s).lockView = s.lockView := by
  unfold switchPointWork
  rw [releaseDue_lockView, publishTally_lockView, inputNotice_lockView, frameTake_lockView,
    quietStep_lockView, setupSwitch_lockView, inputsSwitch_lockView, timingSwitch_lockView,
    closeClipFrame_lockView]

theorem timingSetupWork_lockView (s : State) : (timingSetupWork s).lockView = s.lockView := by
  unfold timingSetupWork
  rw [clampCropsWhen_lockView, settleAll_lockView, raiseAllWhen_lockView (by decide)]
  rfl

/-! ### Writing the lock table (R50 to R53) -/

/-- The table once port `p` has taken the named resources (R50). -/
def takenLocks (p : Port) (names : Resource → Bool) (locks : PerResource (Option Port)) :
    PerResource (Option Port) := .build fun r => if names r then some p else locks.get r

/-- The table once port `p` has given up what it holds of the picked resources (R51, R52). -/
def freedLocks (p : Port) (pick : Resource → Bool) (locks : PerResource (Option Port)) :
    PerResource (Option Port) := .build fun r => if pick r && locks.get r == some p then none else locks.get r

theorem takenLocks_get (p : Port) (names : Resource → Bool) (locks : PerResource (Option Port))
    (r : Resource) : (takenLocks p names locks).get r = if names r then some p else locks.get r :=
  PerResource.get_build _ r

theorem freedLocks_get (p : Port) (pick : Resource → Bool) (locks : PerResource (Option Port))
    (r : Resource) : (freedLocks p pick locks).get r
      = if pick r && locks.get r == some p then none else locks.get r :=
  PerResource.get_build _ r

theorem perResource_eq_iff {α : Type} {v w : PerResource α} : v = w ↔ ∀ r, v.get r = w.get r :=
  ⟨fun h _ => h ▸ rfl, PerResource.ext_get⟩

theorem mem_all_resources (r : Resource) : r ∈ Resource.all := by
  cases r with
  | keyer k => cases k <;> decide
  | _ => decide

theorem holdsResource_iff (s : State) (p : Port) (r : Resource) :
    holdsResource s p r = true ↔ s.mes.locks.get r = some p := beq_iff_eq

theorem maskResources_all (mask : Byte) (f : Resource → Bool) :
    (maskResources mask).all f = true ↔ ∀ r, maskNames mask r = true → f r = true := by
  simp only [maskResources, maskNames, List.all_eq_true, List.mem_filter, mem_all_resources, true_and]

theorem lockedOut_maskResources (s : State) (p : Port) (mask : Byte) :
    lockedOut s p (maskResources mask) = false
      ↔ ∀ r, maskNames mask r = true → heldByOther s p r = false := by
  simp [lockedOut, maskResources, maskNames, mem_all_resources]

/-- Taking resources changes the table unless the port holds them all. -/
theorem takenLocks_eq_iff (s : State) (p : Port) (mask : Byte) :
    takenLocks p (maskNames mask) s.mes.locks = s.mes.locks
      ↔ (maskResources mask).all (holdsResource s p) = true := by
  simp only [maskResources_all, holdsResource_iff, perResource_eq_iff, takenLocks_get]
  refine forall_congr' fun r => ?_
  by_cases hr : maskNames mask r = true <;> simp [hr, eq_comm]

/-- Freeing resources changes the table exactly when the port holds one of them. -/
theorem freedLocks_eq_iff (s : State) (p : Port) (pick : Resource → Bool) :
    freedLocks p pick s.mes.locks = s.mes.locks ↔ holdsAny s p pick = false := by
  simp only [holdsAny, List.any_eq_false, mem_all_resources, true_implies, perResource_eq_iff,
    freedLocks_get]
  refine forall_congr' fun r => ?_
  by_cases hr : (pick r && holdsResource s p r) = true
  · have held : s.mes.locks.get r = some p := by simp_all [holdsResource_iff]
    simp_all
  · have kept : (pick r && s.mes.locks.get r == some p) = false := by simpa [holdsResource] using hr
    simp [hr, kept]

/-- Freeing everything changes the table exactly when something is held. -/
theorem noLocks_eq_iff (s : State) :
    (.const none : PerResource (Option Port)) = s.mes.locks ↔ anyHeld s = false := by
  rw [eq_comm, perResource_eq_iff]
  simp [anyHeld, mem_all_resources]

/-- A write that raises LOCKS when, and only when, it changes the table. -/
theorem setLocks_lockView {c : Bool} {locks : PerResource (Option Port)} {s : State}
    (h : locks = s.mes.locks ↔ c = false) :
    (raiseAllWhen c .locks (setLocks locks s)).lockView = s.lockView.write locks := by
  refine lockView_eq (by simp [LockView.write]) fun p => ?_
  cases c <;> simp_all [LockView.write, raisedWhen]

theorem freeLocks_lockView (p : Port) (pick : Resource → Bool) (s : State) :
    (freeLocks p pick s).lockView = s.lockView.write (freedLocks p pick s.mes.locks) :=
  setLocks_lockView (freedLocks_eq_iff s p pick)

theorem freeAllLocks_lockView (s : State) :
    (freeAllLocks s).lockView = s.lockView.write (.const none) :=
  setLocks_lockView (noLocks_eq_iff s)

/-- LOCK of resources that no other port holds, with a mask in range (R50). -/
theorem dealLock_free {mask : Byte} {p : Port} {s : State} (free : lockedOut s p (maskResources mask) = false)
    (range : maskInRange mask = true) :
    dealLock mask p s =
      if (maskResources mask).all (holdsResource s p) then ⟨.ignored, [], s⟩
      else ⟨.ok, [], (s.withLocks (takenLocks p (maskNames mask) s.mes.locks)).raising .locks⟩ := by
  rw [dealLock, checked, free, range]
  rfl

/-- LOCK leaves everything as it was, or takes what it names, none of which another port holds. -/
theorem dealLock_lockView (mask : Byte) (p : Port) (s : State) :
    (dealLock mask p s).state.lockView = s.lockView
    ∨ (lockedOut s p (maskResources mask) = false ∧ (dealLock mask p s).state.lockView
        = s.lockView.write (takenLocks p (maskNames mask) s.mes.locks)) := by
  cases free : lockedOut s p (maskResources mask)
  · cases range : maskInRange mask
    · exact .inl (by simp [dealLock, checked, free, range, refuse])
    · rw [dealLock_free free range]
      split
      · exact .inl rfl
      · next held =>
        have changes := mt (takenLocks_eq_iff s p mask).1 held
        exact .inr ⟨rfl, setLocks_lockView (c := true) (iff_of_false changes nofun)⟩
  · exact .inl (by simp [dealLock, checked, free, refuse])

/-- A command that touches no resource is checked for its range alone. -/
theorem checked_nil (p : Port) (inRange : Bool) (s : State) (rest : Answer) :
    checked p [] inRange s rest = if inRange then rest else refuse .param s := by
  cases inRange <;> rfl

/-- UNLOCK with a mask in range (R51). -/
theorem dealUnlock_inRange {mask : Byte} (range : maskInRange mask = true) (p : Port) (s : State) :
    dealUnlock mask p s =
      if holdsAny s p (maskNames mask) then
        ⟨.ok, [], (s.withLocks (freedLocks p (maskNames mask) s.mes.locks)).raising .locks⟩
      else ⟨.ignored, [], s⟩ := by
  rw [dealUnlock, checked_nil, if_pos range]
  split
  · next held =>
    rw [freeLocks, raiseAllWhen, if_pos held]
    rfl
  · rfl

theorem dealUnlock_lockView {mask : Byte} (range : maskInRange mask = true) (p : Port) (s : State) :
    (dealUnlock mask p s).state.lockView
      = s.lockView.write (freedLocks p (maskNames mask) s.mes.locks) := by
  rw [dealUnlock_inRange range]
  have changes := freedLocks_eq_iff s p (maskNames mask)
  split
  · next held => exact setLocks_lockView (c := true) (by rw [changes, held])
  · next idle =>
    rw [changes.2 (by simpa using idle)]
    exact s.lockView.write_same.symm

theorem dealUnlock_lockView_cases (mask : Byte) (p : Port) (s : State) :
    (dealUnlock mask p s).state.lockView = s.lockView
    ∨ (dealUnlock mask p s).state.lockView
        = s.lockView.write (freedLocks p (maskNames mask) s.mes.locks) := by
  cases h : maskInRange mask
  · exact .inl (by simp [dealUnlock, checked_nil, h, refuse])
  · exact .inr (dealUnlock_lockView h p s)

/-- PORT RESET clears the port's flags and then frees what it holds (R175). -/
theorem dealPortReset_lockView (p : Port) (s : State) :
    (dealPortReset p s).state.lockView
      = (s.lockView.clear p).write (freedLocks p (fun _ => true) s.mes.locks) := by
  have lever (u : State) : (leverPortReset p u).lockView = u.lockView := ite_lockView rfl
  have before : (setChanges p ⟨[], true⟩ (cuesPortReset p (leverPortReset p
      (mapPort p resetPort s)))).lockView = s.lockView.clear p :=
    (lever _).trans (setPort_lockView_clear s p rfl)
  refine (freeLocks_lockView p _ _).trans ?_
  rw [before, ← lockView_locks, before]
  rfl

/-- An ENGINE RESET that is taken frees every resource (R176). -/
theorem engineResetWork_lockView (p : Port) (s : State) :
    (engineResetWork p s).lockView = s.lockView.write (.const none) := by
  have lever (u : State) : (leverEngineReset p u).lockView = u.lockView :=
    raiseEach_lockView (by decide) _ u
  unfold engineResetWork
  rw [dropCues_lockView, lever]
  exact freeAllLocks_lockView (setupEngineReset (inputsEngineReset s))

theorem lockedOut_singleton (s : State) (p : Port) (r : Resource) :
    lockedOut s p [r] = heldByOther s p r := by simp [lockedOut]

/-- ENGINE RESET is LOCKED while another port holds SETUP, and otherwise frees every resource. -/
theorem dealEngineReset_lockView (p : Port) (s : State) :
    (dealEngineReset p s).state.lockView
      = if heldByOther s p .setup then s.lockView else s.lockView.write (.const none) := by
  simp only [dealEngineReset, checked, lockedOut_singleton]
  split
  · rfl
  · exact engineResetWork_lockView p s

/-! ### The course of a frame -/

theorem intake_lockView (p : Port) (deal : State → Answer) (s : State) :
    (intake p deal s).lockView = (deal (grant p s)).state.lockView := reply_lockView p _ _ _

/-- A frame leaves the locks as they are, or does what its dealing does. -/
theorem commandFrame_lockView (p : Port) (covered : List Byte) (chk : Byte) (deal : State → Answer)
    (s : State) :
    (commandFrame p covered chk deal s).lockView = s.lockView
    ∨ (commandFrame p covered chk deal s).lockView = (deal (grant p s)).state.lockView := by
  rcases commandFrame_cases p covered chk deal s with ⟨-, e⟩ | ⟨-, -, e⟩ | ⟨-, -, -, e⟩ |
    ⟨-, -, -, e⟩ <;> rw [e]
  · exact .inl rfl
  · exact .inl (reply_lockView p _ _ s)
  · exact .inr (intake_lockView p deal s)
  · exact .inl (joinWaiting_lockView p _ s)

theorem commandFrame_keeps {deal : State → Answer} (h : ∀ s, (deal s).state.lockView = s.lockView)
    (p : Port) (covered : List Byte) (chk : Byte) (s : State) :
    (commandFrame p covered chk deal s).lockView = s.lockView :=
  (commandFrame_lockView p covered chk deal s).elim id fun e => e.trans (h (grant p s))

theorem sizedFrame_keeps {deal : State → Answer} (h : ∀ s, (deal s).state.lockView = s.lockView)
    (p : Port) (head : List Byte) (n : Nat) (body : List Byte) (s : State) :
    (sizedFrame p head n body deal s).lockView = s.lockView := by
  unfold sizedFrame
  split
  · exact commandFrame_keeps h p _ _ s
  · rfl

theorem streamCourse_lockView (p : Port) (value : Half) (mode chk : Byte) (s : State) :
    (streamCourse p value mode chk s).lockView = s.lockView := by
  unfold streamCourse
  split_ifs
  · exact takeBreak_lockView p s
  · rcases passToIntake_cases p ⟨true, be16 value ++ [mode]⟩ (dealStream value mode p) s with
      ⟨-, e⟩ | ⟨-, e⟩ <;> rw [e]
    · exact (intake_lockView p _ s).trans (dealStream_lockView value mode p _)
    · exact joinWaiting_lockView p _ s
  · exact reply_lockView p _ _ s
  · rfl

/-! ### Every row -/

/-- What a row can make of the lock view of a state: only six rows do anything to it. -/
inductive LockEffect (s : State) : Instr → LockView → Prop where
  | kept (c : Instr) : LockEffect s c s.lockView
  | noticeRead (p : Port) (chk : Byte) : LockEffect s (.noticeRead p chk) (s.lockView.clear p)
  | lock (p : Port) (mask chk : Byte) (free : lockedOut s p (maskResources mask) = false) :
    LockEffect s (.lock p mask chk) (s.lockView.write (takenLocks p (maskNames mask) s.mes.locks))
  | unlock (p : Port) (mask chk : Byte) :
    LockEffect s (.unlock p mask chk) (s.lockView.write (freedLocks p (maskNames mask) s.mes.locks))
  | portReset (p : Port) (chk : Byte) :
    LockEffect s (.portReset p chk)
      ((s.lockView.clear p).write (freedLocks p (fun _ => true) s.mes.locks))
  | engineReset (p : Port) (chk : Byte) (free : heldByOther s p .setup = false) :
    LockEffect s (.engineReset p chk) (s.lockView.write (.const none))
  | powerOn (rsel : BitVec 2) : LockEffect s (.resetAssert rsel) ⟨.const none, .const false⟩

theorem LockEffect.ofKept {s t u : State} {c : Instr} (h : exec c s = .next t) (hu : exec c s = .next u)
    (keeps : u.lockView = s.lockView) : LockEffect s c t.lockView := by
  cases h.symm.trans hu
  exact keeps ▸ .kept c

/-- A row that runs the course of a frame whose dealing keeps the view keeps it. -/
theorem LockEffect.ofKeptFrame {s t : State} {c : Instr} {p : Port} {covered : List Byte} {chk : Byte}
    {deal : State → Answer} (h : exec c s = .next t)
    (hu : exec c s = .next (commandFrame p covered chk deal s))
    (keeps : ∀ s, (deal s).state.lockView = s.lockView) : LockEffect s c t.lockView :=
  .ofKept h hu (commandFrame_keeps keeps p covered chk s)

/-- An event that acts while RESET is not asserted, and then keeps the view, keeps it. -/
theorem LockEffect.ofKeptEvent {s t : State} {c : Instr} {f : State → State} (h : exec c s = .next t)
    (hu : exec c s = .next (unlessReset f s)) (keeps : ∀ s, (f s).lockView = s.lockView) :
    LockEffect s c t.lockView := .ofKept h hu (unlessReset_lockView keeps s)

/-- A row that runs the course of a frame has an effect if its dealing has. -/
theorem LockEffect.ofFrame {s t : State} {c : Instr} {p : Port} {covered : List Byte} {chk : Byte}
    {deal : State → Answer} (h : exec c s = .next t)
    (hu : exec c s = .next (commandFrame p covered chk deal s))
    (effect : LockEffect s c (deal (grant p s)).state.lockView) : LockEffect s c t.lockView := by
  cases h.symm.trans hu
  rcases commandFrame_lockView p covered chk deal s with e | e <;> rw [e]
  · exact .kept c
  · exact effect

theorem resetAssertWork_lockView (rsel : BitVec 2) (s : State) :
    (resetAssertWork rsel s).lockView = ⟨.const none, .const false⟩ :=
  lockView_eq rfl fun p => by simp [resetAssertWork, State.powerOn, powerOnPort, flagSet]

/-- Everything a row can do to the lock table and to the LOCKS flags. -/
theorem exec_lockEffect {c : Instr} {s t : State} (h : exec c s = .next t) :
    LockEffect s c t.lockView := by
  cases c with
  | lock p mask chk =>
    refine .ofFrame h rfl ?_
    rcases dealLock_lockView mask p (grant p s) with e | ⟨free, e⟩ <;> rw [e]
    · exact .kept _
    · exact .lock p mask chk free
  | unlock p mask chk =>
    refine .ofFrame h rfl ?_
    rcases dealUnlock_lockView_cases mask p (grant p s) with e | e <;> rw [e]
    · exact .kept _
    · exact .unlock p mask chk
  | noticeRead p chk =>
    exact .ofFrame h rfl (dealNoticeRead_lockView p (grant p s) ▸ .noticeRead p chk)
  | portReset p chk =>
    exact .ofFrame h rfl (dealPortReset_lockView p (grant p s) ▸ .portReset p chk)
  | engineReset p chk =>
    refine .ofFrame h rfl ?_
    rw [dealEngineReset_lockView]
    split
    · exact .kept _
    · next free => exact .engineReset p chk (by simpa using free)
  | resetAssert rsel =>
    cases h
    exact resetAssertWork_lockView rsel s ▸ .powerOn rsel
  -- the frames that leave the locks alone
  | stateRead | timingRead | tallyChanges | clipRead | cueList => exact .ofKeptFrame h rfl fun _ => rfl
  | inputRead => exact .ofKeptFrame h rfl (dealInputRead_lockView _)
  | tallyRead => exact .ofKeptFrame h rfl (dealTallyRead_lockView _ _ _)
  | sceneRead => exact .ofKeptFrame h rfl (dealSceneRead_lockView _)
  | selectBus p a b => exact .ofKeptFrame h rfl (dealCueCommand_lockView (.selectBus a b) p)
  | setNext p a b => exact .ofKeptFrame h rfl (dealCueCommand_lockView (.setNext a b) p)
  | setRate p a => exact .ofKeptFrame h rfl (dealCueCommand_lockView (.setRate a) p)
  | keySetup p a b c d e => exact .ofKeptFrame h rfl (dealCueCommand_lockView (.keySetup a b c d e) p)
  | keyCrop p a b c d e f => exact .ofKeptFrame h rfl (dealCueCommand_lockView (.keyCrop a b c d e f) p)
  | keyOrder p a b c d => exact .ofKeptFrame h rfl (dealCueCommand_lockView (.keyOrder a b c d) p)
  | wipeSetup p a b c d e f g =>
    exact .ofKeptFrame h rfl (dealCueCommand_lockView (.wipeSetup a b c d e f g) p)
  | matteSet p a b c d => exact .ofKeptFrame h rfl (dealCueCommand_lockView (.matteSet a b c d) p)
  | cut p => exact .ofKeptFrame h rfl (dealCueCommand_lockView .cut p)
  | auto p => exact .ofKeptFrame h rfl (dealCueCommand_lockView .auto p)
  | keyCut p a b => exact .ofKeptFrame h rfl (dealCueCommand_lockView (.keyCut a b) p)
  | sceneRecall p a b => exact .ofKeptFrame h rfl (dealCueCommand_lockView (.sceneRecall a b) p)
  | limiterSetup => exact .ofKeptFrame h rfl (dealLimiterSetup_lockView _ _ _ _ _)
  | lever => exact .ofKeptFrame h rfl (dealLever_lockView _ _ _)
  | leverRelease => exact .ofKeptFrame h rfl (dealLeverRelease_lockView _)
  | cue => exact .ofKept h rfl (sizedFrame_keeps (dealCue_lockView _ _ _ _) _ _ _ _ s)
  | cueCancel => exact .ofKeptFrame h rfl (dealCueCancel_lockView _ _)
  | sceneSave => exact .ofKeptFrame h rfl (dealSceneSave_lockView _ _)
  | sceneLoad => exact .ofKept h rfl (sizedFrame_keeps (dealSceneLoad_lockView _ _ _) _ _ _ _ s)
  | sceneErase => exact .ofKeptFrame h rfl (dealSceneErase_lockView _)
  | sceneProtect => exact .ofKeptFrame h rfl (dealSceneProtect_lockView _ _)
  | timingSetup => exact .ofKeptFrame h rfl (dealTimingSetup_lockView _ _ _)
  | setFrameCount => exact .ofKeptFrame h rfl (dealSetFrameCount_lockView _ _)
  | alignSetup => exact .ofKeptFrame h rfl (dealAlignSetup_lockView _ _ _)
  | portSetup => exact .ofKeptFrame h rfl (dealPortSetup_lockView _ _ _)
  | noticeMask => exact .ofKeptFrame h rfl (dealNoticeMask_lockView _ _)
  | streamFrame => exact .ofKept h rfl (streamCourse_lockView _ _ _ _ s)
  -- the events of the links and of the video timing
  | breakFrame p => exact .ofKept h rfl (ite_lockView (takeBreak_lockView p s))
  | illegal p => exact .ofKept h rfl (ite_lockView (reply_lockView p _ _ s))
  | tornFrame p =>
    exact .ofKept h rfl (ite_lockView ((raiseTo_lockView (by decide) p _).trans (closePort_lockView p s)))
  | responseLost p => exact .ofKeptEvent h rfl fun s => ite_lockView (closePort_lockView p s)
  | responseReady p =>
    exact .ofKeptEvent h rfl fun s => ite_lockView
      (setPort_lockView s p (congrArg (flagSet · .locks) (formResponse_flags (s.ports.get p))))
  | responseSent p => exact .ofKeptEvent h rfl fun s => ite_lockView (setPort_lockView s p rfl)
  | selectFall p => exact .ofKept h rfl (selectFallWork_lockView p s)
  | transactionEnd p => exact .ofKept h rfl (transactionEndWork_lockView p s)
  | resetRelease => exact .ofKept h rfl rfl
  | referenceLineSync | referenceFrameMarker | inputFrameMarker | goLive =>
    exact .ofKeptEvent h rfl fun _ => rfl
  | activeSample => exact .ofKeptEvent h rfl fun _ => ite_lockView rfl
  -- the switch point and its steps
  | switchPoint x => exact .ofKeptEvent h rfl (switchPointWork_lockView x)
  | timingSetupApply => exact .ofKeptEvent h rfl timingSetupWork_lockView
  | issue x => exact .ofKeptEvent h rfl (issueAll_lockView x)
  | engineResetApply => exact .ofKeptEvent h rfl applyEngineReset_lockView
  | sceneCutApply => exact .ofKeptEvent h rfl sceneCutStage_lockView
  | keyCutApply k => exact .ofKeptEvent h rfl fun s => behindSceneCut_lockView (keyCutStage_lockView k s)
  | cutPerform =>
    exact .ofKeptEvent h rfl (fun s =>
      behindSceneCut_lockView ((finish_lockView _).trans (cutStage_lockView s)))
  | autoStart =>
    exact .ofKeptEvent h rfl (fun s =>
      behindSceneCut_lockView ((finish_lockView _).trans (autoStage_lockView s)))
  | takeover =>
    exact .ofKeptEvent h rfl (fun s =>
      behindSceneCut_lockView ((finish_lockView _).trans (takeoverStage_lockView s)))
  | manualStart =>
    exact .ofKeptEvent h rfl (fun s =>
      (finish_lockView _).trans (manualStage_lockView s))
  | completion => exact .ofKeptEvent h rfl fun _ => finish_lockView _
  | quietLimitExpiry => exact .ofKeptEvent h rfl quietStep_lockView
  | cueRelease => exact .ofKeptEvent h rfl releaseFirst_lockView

/-! ### LOCKS follows the table (R53) -/

/-- LOCKS follows the table from one view to the next: raised to all ports if the table changes, and raised
to none if it stays (R53). -/
def LockView.Follows (v w : LockView) : Prop :=
  (w.locks ≠ v.locks → ∀ p, w.raised.get p = true)
  ∧ (w.locks = v.locks → ∀ p, w.raised.get p = true → v.raised.get p = true)

theorem LockView.follows_refl (v : LockView) : v.Follows v := ⟨fun h => absurd rfl h, fun _ _ h => h⟩

theorem LockView.follows_clear (v : LockView) (p : Port) : v.Follows (v.clear p) := by
  refine ⟨fun h => absurd rfl h, fun _ q => ?_⟩
  by_cases hq : q = p
  · subst hq; simp [LockView.clear]
  · simp [LockView.clear, hq]

theorem LockView.Follows.write {v w : LockView} (h : v.Follows w) (same : w.locks = v.locks)
    (locks : PerResource (Option Port)) : v.Follows (w.write locks) := by
  unfold LockView.write
  rw [same]
  refine ⟨fun (changed : locks ≠ v.locks) p => by simp [changed], fun (kept : locks = v.locks) => ?_⟩
  rw [if_pos kept]
  exact h.2 same

/-- LOCKS follows the table over every row but power-on. -/
theorem LockEffect.follows {s : State} {c : Instr} {w : LockView} (h : LockEffect s c w)
    (hc : ∀ rsel, c ≠ .resetAssert rsel) : s.lockView.Follows w := by
  cases h with
  | kept => exact s.lockView.follows_refl
  | noticeRead p => exact s.lockView.follows_clear p
  | lock | unlock | engineReset => exact s.lockView.follows_refl.write rfl _
  | portReset p => exact (s.lockView.follows_clear p).write rfl _
  | powerOn rsel => exact absurd rfl (hc rsel)

/-- Settles O16: by the effect of each row, every change of the table is a `LockView.write`. -/
theorem lockTableChangeRaisesLocks : Obligations.LockTableChangeRaisesLocks := by
  intro c s t hc h
  simpa [LockView.Follows] using (exec_lockEffect h).follows hc

/-! ### What ends a lock (R52) -/

/-- A port that is not locked out of what it names takes none of another port's locks. -/
theorem takenLocks_get_held {s : State} {p q : Port} {mask : Byte} {r : Resource}
    (free : lockedOut s q (maskResources mask) = false) (held : s.mes.locks.get r = some p) :
    (takenLocks q (maskNames mask) s.mes.locks).get r = some p := by
  rw [takenLocks_get]
  split
  · next named =>
    have own := (lockedOut_maskResources s q mask).1 free r named
    rw [heldByOther, held] at own
    have same : p = q := by simpa using own
    rw [same]
  · exact held

/-- Freeing ends a lock only if it is a picked one of the port. -/
theorem freedLocks_get_lost {p q : Port} {pick : Resource → Bool} {locks : PerResource (Option Port)}
    {r : Resource} (held : locks.get r = some p) (lost : (freedLocks q pick locks).get r ≠ some p) :
    q = p ∧ pick r = true := by
  rw [freedLocks_get, held] at lost
  split at lost
  · next freed =>
    obtain ⟨picked, same⟩ : pick r = true ∧ p = q := by simpa using freed
    exact ⟨same.symm, picked⟩
  · exact absurd rfl lost

theorem freedLocks_get_freed {p : Port} {pick : Resource → Bool} {locks : PerResource (Option Port)}
    {r : Resource} (held : locks.get r = some p) (picked : pick r = true) :
    (freedLocks p pick locks).get r = none := by
  simp [freedLocks_get, held, picked]

theorem freedLocks_all_get (p : Port) (locks : PerResource (Option Port)) (r : Resource) :
    (freedLocks p (fun _ => true) locks).get r ≠ some p := by
  rw [freedLocks_get]
  split
  · simp
  · next other => simpa using other

/-- The ways in which a row can end a lock (R52). -/
theorem LockEffect.lost {s : State} {c : Instr} {w : LockView} {p : Port} {r : Resource}
    (h : LockEffect s c w) (held : s.mes.locks.get r = some p) (lost : w.locks.get r ≠ some p) :
    (∃ mask chk, c = .unlock p mask chk ∧ mask.getLsbD (resourceBit r) = true)
    ∨ (∃ chk, c = .portReset p chk)
    ∨ (∃ q chk, c = .engineReset q chk ∧ heldByOther s q .setup = false)
    ∨ ∃ rsel, c = .resetAssert rsel := by
  cases h with
  | kept => exact absurd held lost
  | noticeRead => exact absurd held lost
  | lock q mask chk free => exact absurd (takenLocks_get_held free held) lost
  | unlock q mask chk =>
    obtain ⟨rfl, named⟩ := freedLocks_get_lost held lost
    exact .inl ⟨mask, chk, rfl, named⟩
  | portReset q chk =>
    obtain ⟨rfl, -⟩ := freedLocks_get_lost held lost
    exact .inr (.inl ⟨chk, rfl⟩)
  | engineReset q chk free => exact .inr (.inr (.inl ⟨q, chk, rfl, free⟩))
  | powerOn rsel => exact .inr (.inr (.inr ⟨rsel, rfl⟩))

/-- A well-checked command on a port that reads it is dealt with by the free intake. -/
theorem exec_accepted {c : Instr} {p : Port} {s : State} (h : Accepted c p s) {covered : List Byte}
    {chk : Byte} (hf : commandFrameOf c = some ⟨p, covered, chk⟩) :
    exec c s = .next (intake p (dealCovered p covered) s) := by
  obtain ⟨reads, idle, covered', hc⟩ := h
  cases hf.symm.trans hc
  rw [exec_dealCovered hc, commandFrame_checked reads idle]

theorem exec_lock_accepted {p : Port} {mask chk : Byte} {s : State} (h : Accepted (.lock p mask chk) p s) :
    exec (.lock p mask chk) s = .next (intake p (dealLock mask p) s) := exec_accepted h rfl

theorem exec_unlock_accepted {p : Port} {mask chk : Byte} {s : State}
    (h : Accepted (.unlock p mask chk) p s) :
    exec (.unlock p mask chk) s = .next (intake p (dealUnlock mask p) s) := exec_accepted h rfl

theorem exec_portReset_accepted {p : Port} {chk : Byte} {s : State} (h : Accepted (.portReset p chk) p s) :
    exec (.portReset p chk) s = .next (intake p (dealPortReset p) s) := exec_accepted h rfl

theorem exec_engineReset_accepted {p : Port} {chk : Byte} {s : State}
    (h : Accepted (.engineReset p chk) p s) :
    exec (.engineReset p chk) s = .next (intake p (dealEngineReset p) s) := exec_accepted h rfl

/-- The table after the intake has dealt with a command whose view is known. -/
theorem intake_locks {p : Port} {deal : State → Answer} {s : State} {v : LockView}
    (h : (deal (grant p s)).state.lockView = v) : (intake p deal s).mes.locks = v.locks := by
  rw [← h, ← intake_lockView]
  rfl

/-- A command's answer and the state it leaves, once the intake has granted it. -/
theorem intake_answering {p : Port} {deal : State → Answer} {s u : State} {o : CmdOutcome}
    {d : List Byte} (h : deal (grant p s) = ⟨o, d, grant p u⟩) : intake p deal s = u.answering p o d := by
  rw [intake_eq, h]
  exact reply_eq_answering (grant p u) p o d rfl

theorem maskInRange_of_names {mask : Byte} {r : Resource} (h : mask.toNat < 128)
    (named : maskNames mask r = true) : maskInRange mask = true := by
  have nonzero : mask ≠ 0 := by
    rintro rfl
    simp [maskNames] at named
  have positive : 0 < mask.toNat := Nat.pos_of_ne_zero fun h => nonzero (BitVec.eq_of_toNat_eq h)
  simp [maskInRange, h, positive]

/-- Settles O15: what can end a lock by the effect of each row, and that it does by the dealing of each of
the four. -/
theorem heldLockStaysUntilFreed : Obligations.HeldLockStaysUntilFreed := by
  refine ⟨fun c s t r p h held lost => (exec_lockEffect h).lost held lost,
    fun p s => ⟨fun mask chk r ha small named held => ?_, fun chk ha => ?_, fun chk ha => ⟨fun taken => ?_,
      fun free => ?_⟩, fun rsel => ⟨_, rfl, fun r => PerResource.get_const none r⟩⟩⟩
  · refine ⟨_, exec_unlock_accepted ha, ?_⟩
    rw [intake_locks (dealUnlock_lockView (maskInRange_of_names small named) p _)]
    exact freedLocks_get_freed held named
  · refine ⟨_, exec_portReset_accepted ha, fun r => ?_⟩
    rw [intake_locks (dealPortReset_lockView p _)]
    exact freedLocks_all_get p s.mes.locks r
  · rw [exec_engineReset_accepted ha]
    refine congrArg _ (intake_answering (u := s) ?_)
    simp [dealEngineReset, checked, lockedOut_singleton, taken, refuse]
  · refine ⟨_, exec_engineReset_accepted ha, fun r => ?_⟩
    rw [intake_locks (dealEngineReset_lockView p _), heldByOther_grant, free]
    exact PerResource.get_const none r

/-! ### LOCK and UNLOCK (R50, R51) -/

theorem maskInRange_eq_false_iff (mask : Byte) : maskInRange mask = false ↔ mask = 0 ∨ 0x80#8 ≤ mask := by
  simp only [maskInRange, Bool.and_eq_false_iff, decide_eq_false_iff_not]
  bv_omega

/-- The course of a LOCK that is dealt with (R50). -/
theorem intake_dealLock (mask : Byte) (p : Port) (s : State) :
    intake p (dealLock mask p) s =
      if lockedOut s p (maskResources mask) then s.answering p .locked
      else if maskInRange mask = false then s.answering p .param
      else if (maskResources mask).all (holdsResource s p) then s.answering p .ignored
      else ((s.withLocks (takenLocks p (maskNames mask) s.mes.locks)).raising .locks).answering p .ok := by
  split_ifs with locked range held
  · exact intake_answering (by simp [dealLock, checked, locked, refuse])
  · exact intake_answering (by simp [dealLock, checked, locked, range, refuse])
  · have free := dealLock_free (s := grant p s) (by simpa using locked) (by simpa using range)
    exact intake_answering (free.trans (if_pos held))
  · have free := dealLock_free (s := grant p s) (by simpa using locked) (by simpa using range)
    exact intake_answering (free.trans (if_neg held))

/-- The course of an UNLOCK that is dealt with (R51). -/
theorem intake_dealUnlock (mask : Byte) (p : Port) (s : State) :
    intake p (dealUnlock mask p) s =
      if maskInRange mask = false then s.answering p .param
      else if holdsAny s p (maskNames mask) then
        ((s.withLocks (freedLocks p (maskNames mask) s.mes.locks)).raising .locks).answering p .ok
      else s.answering p .ignored := by
  split_ifs with range held
  · exact intake_answering (by simp [dealUnlock, checked_nil, range, refuse])
  · exact intake_answering ((dealUnlock_inRange (by simpa using range) p _).trans (if_pos held))
  · exact intake_answering ((dealUnlock_inRange (by simpa using range) p _).trans (if_neg held))

/-- Settles O13: the branches of LOCK are those of the statement, in its order. -/
theorem lockIsAllOrNothing : Obligations.LockIsAllOrNothing := by
  intro p mask chk s h
  rw [exec_lock_accepted h, intake_dealLock]
  simp only [maskInRange_eq_false_iff]
  rfl

/-- Settles O14: the branches of UNLOCK are those of the statement, in its order. -/
theorem unlockFreesOwnResources : Obligations.UnlockFreesOwnResources := by
  intro p mask chk s h
  rw [exec_unlock_accepted h, intake_dealUnlock]
  simp only [maskInRange_eq_false_iff]
  rfl

end Sys2Proof.Machine
end

section
/-!
SUPPORT. The background mix of R113, and the statement about it. Everything rests on one bound: the rounded
share of a difference never leaves the interval from 0 to the difference.
-/

namespace Sys2Proof.Machine

/-- The rounded share `m / 4096` of a difference lies between 0 and the difference, on either side of 0. -/
theorem roundedShare_between (d : Int) {m : Nat} (h : m ≤ 4096) :
    min 0 d ≤ (d * m + 2048) / 4096 ∧ (d * m + 2048) / 4096 ≤ max 0 d := by
  have nonneg : (0 : Int) ≤ m := Int.natCast_nonneg m
  have whole : (m : Int) ≤ 4096 := by exact_mod_cast h
  rcases le_total 0 d with up | down
  · have low : 0 ≤ d * m := mul_nonneg up nonneg
    have high : d * m ≤ d * 4096 := mul_le_mul_of_nonneg_left whole up
    omega
  · have high : d * m ≤ 0 := mul_nonpos_of_nonpos_of_nonneg down nonneg
    have low : d * 4096 ≤ d * m := mul_le_mul_of_nonpos_left whole down
    omega

/-- The mix is never cut off at 0: the formula of R113 stays at or above the smaller code. -/
theorem mixCode_cast (a b : Nat) {m : Nat} (h : m ≤ 4096) :
    (mixCode a b m : Int) = (a : Int) + (((b : Int) - a) * m + 2048) / 4096 := by
  obtain ⟨low, -⟩ := roundedShare_between ((b : Int) - a) h
  exact Int.toNat_of_nonneg (by omega)

theorem mixCode_between (a b : Nat) {m : Nat} (h : m ≤ 4096) :
    min a b ≤ mixCode a b m ∧ mixCode a b m ≤ max a b := by
  have value := mixCode_cast a b h
  obtain ⟨low, high⟩ := roundedShare_between ((b : Int) - a) h
  omega

@[simp] theorem mixCode_zero (a b : Nat) : mixCode a b 0 = a := by
  simp [mixCode]

@[simp] theorem mixCode_full (a b : Nat) : mixCode a b 4096 = b := by
  have value := mixCode_cast a b (le_refl 4096)
  omega

theorem programBackground_of_bkgd {s : State} (h : (inFlightSelection s).bkgd = true) (x y : Nat)
    (inputs : PerInput Pixel) :
    programBackground s x y inputs = mixTriple (inputSample s x inputs (pgmInput s.tc.role))
      (inputSample s x inputs (pstInput s.tc.role)) (mixFactor s x y) := if_pos h

theorem programBackground_of_not_bkgd {s : State} (h : ¬(inFlightSelection s).bkgd = true) (x y : Nat)
    (inputs : PerInput Pixel) :
    programBackground s x y inputs = inputSample s x inputs (pgmInput s.tc.role) := if_neg h

/-- Settles O50: whether BKGD is in flight decides what the background is, and the rounded share of the
difference of two codes bounds their mix. -/
theorem backgroundMixLiesBetween : Obligations.BackgroundMixLiesBetween := by
  refine ⟨fun s x y inputs => ?_, fun a b m h => ?_⟩
  · dsimp only
    split_ifs with inFlight
    · exact programBackground_of_bkgd inFlight x y inputs
    · exact programBackground_of_not_bkgd inFlight x y inputs
  · obtain ⟨low, high⟩ := mixCode_between a b h
    exact ⟨low, high, mixCode_cast a b h, mixCode_zero a b, mixCode_full a b⟩

end Sys2Proof.Machine
end

section
/-!
SUPPORT. What the intake can make of a command, and what a row can make of the state, each said once as an
inversion: `Dealt` has one constructor for each meaning of a command, and `RowEffect` one for each way a row
changes the state. The statements about every row or every step are proved over their constructors.
-/

namespace Sys2Proof.Machine

/-! ### What the intake can make of a command -/

/-- The answers that a command of port `p` can get from the intake. -/
inductive Commanded (p : Port) (s : State) : Answer → Prop where
  | illegal : Commanded p s (refuse .illegal s)
  | stateRead : Commanded p s (dealStateRead s)
  | timingRead : Commanded p s (dealTimingRead s)
  | inputRead (input : Byte) : Commanded p s (dealInputRead input s)
  | tallyRead (start count window : Byte) : Commanded p s (dealTallyRead start count window s)
  | tallyChanges : Commanded p s (dealTallyChanges p s)
  | clipRead : Commanded p s (dealClipRead s)
  | cueList : Commanded p s (dealCueList p s)
  | sceneRead (slot : Byte) : Commanded p s (dealSceneRead slot s)
  | noticeRead : Commanded p s (dealNoticeRead p s)
  | cueCommand (c : CueCommand) : Commanded p s (dealCueCommand c p s)
  | limiterSetup (yLo yHi cLo cHi : Half) : Commanded p s (dealLimiterSetup yLo yHi cLo cHi p s)
  | lock (mask : Byte) : Commanded p s (dealLock mask p s)
  | unlock (mask : Byte) : Commanded p s (dealUnlock mask p s)
  | lever (value : Half) (mode : Byte) : Commanded p s (dealLever value mode p s)
  | leverRelease : Commanded p s (dealLeverRelease p s)
  | cue (target : Word) (code : Byte) (args : List Byte) : Commanded p s (dealCue target code args p s)
  | cueCancel (tag : Half) : Commanded p s (dealCueCancel tag p s)
  | sceneSave (slot mask : Byte) : Commanded p s (dealSceneSave slot mask s)
  | sceneLoad (slot mask : Byte) (parts : List Byte) : Commanded p s (dealSceneLoad slot mask parts s)
  | sceneErase (slot : Byte) : Commanded p s (dealSceneErase slot s)
  | sceneProtect (count : Byte) : Commanded p s (dealSceneProtect count p s)
  | timingSetup (raster enable : Byte) : Commanded p s (dealTimingSetup raster enable p s)
  | setFrameCount (value : Word) : Commanded p s (dealSetFrameCount value p s)
  | alignSetup (lMin lMax : Byte) : Commanded p s (dealAlignSetup lMin lMax p s)
  | portSetup (format quiet : Byte) : Commanded p s (dealPortSetup format quiet p s)
  | noticeMask (mask : Half) : Commanded p s (dealNoticeMask mask p s)
  | portReset : Commanded p s (dealPortReset p s)
  | engineReset : Commanded p s (dealEngineReset p s)

/-- The answers that a frame of port `p` can get from the intake: those of a command, or of a stream frame. -/
inductive Dealt (p : Port) (s : State) : Answer → Prop where
  | command {a : Answer} (h : Commanded p s a) : Dealt p s a
  | stream (value : Half) (mode : Byte) : Dealt p s (dealStream value mode p s)

/-- The codes that `dealCoded` reads. -/
def dealtCodes : List Nat :=
  [1, 2, 3, 4, 5, 6, 7, 8, 9, 0x18, 0x19, 0x1a, 0x23, 0x24, 0x30, 0x31, 0x38, 0x3a, 0x3b, 0x3c, 0x40, 0x41, 0x42, 0x48,
    0x49, 0x4a, 0x4b]

theorem dealCoded_unread (p : Port) {code : Byte} (h : code.toNat ∉ dealtCodes) (args : List Byte)
    (s : State) : dealCoded p code args s = refuse .illegal s := by
  simp only [dealtCodes, List.mem_cons, List.not_mem_nil, not_or, not_false_eq_true, and_true] at h
  unfold dealCoded dealCoded.match_1
  simp only [h, dite_false]

theorem commanded_dealCoded (p : Port) (code : Byte) (args : List Byte) (s : State) :
    Commanded p s (dealCoded p code args s) := by
  by_cases read : code.toNat ∈ dealtCodes
  case neg => exact dealCoded_unread p read args s ▸ .illegal
  unfold dealCoded
  simp only [dealtCodes, List.mem_cons, List.not_mem_nil, or_false] at read
  rcases read with e | e | e | e | e | e | e | e | e | e | e | e | e | e | e | e | e | e | e | e | e
      | e | e | e | e | e | e
    <;> rw [e]
  · match args with
    | [] => exact .stateRead
    | _ :: _ => exact .illegal
  · match args with
    | [] => exact .timingRead
    | _ :: _ => exact .illegal
  · match args with
    | [_] => exact .inputRead _
    | [] | _ :: _ :: _ => exact .illegal
  · match args with
    | [_, _, _] => exact .tallyRead _ _ _
    | [] | [_] | [_, _] | _ :: _ :: _ :: _ :: _ => exact .illegal
  · match args with
    | [] => exact .tallyChanges
    | _ :: _ => exact .illegal
  · match args with
    | [] => exact .clipRead
    | _ :: _ => exact .illegal
  · match args with
    | [] => exact .cueList
    | _ :: _ => exact .illegal
  · match args with
    | [_] => exact .sceneRead _
    | [] | _ :: _ :: _ => exact .illegal
  · match args with
    | [] => exact .noticeRead
    | _ :: _ => exact .illegal
  · match args with
    | [_, _, _, _, _, _, _, _] => exact .limiterSetup _ _ _ _
    | [] | [_] | [_, _] | [_, _, _] | [_, _, _, _] | [_, _, _, _, _] | [_, _, _, _, _, _]
    | [_, _, _, _, _, _, _] | _ :: _ :: _ :: _ :: _ :: _ :: _ :: _ :: _ :: _ => exact .illegal
  · match args with
    | [_] => exact .lock _
    | [] | _ :: _ :: _ => exact .illegal
  · match args with
    | [_] => exact .unlock _
    | [] | _ :: _ :: _ => exact .illegal
  · match args with
    | [_, _, _] => exact .lever _ _
    | [] | [_] | [_, _] | _ :: _ :: _ :: _ :: _ => exact .illegal
  · match args with
    | [] => exact .leverRelease
    | _ :: _ => exact .illegal
  · match args with
    | _ :: _ :: _ :: _ :: _ :: _ => exact .cue _ _ _
    | [] | [_] | [_, _] | [_, _, _] | [_, _, _, _] => exact .illegal
  · match args with
    | [_, _] => exact .cueCancel _
    | [] | [_] | _ :: _ :: _ :: _ => exact .illegal
  · match args with
    | [_, _] => exact .sceneSave _ _
    | [] | [_] | _ :: _ :: _ :: _ => exact .illegal
  · match args with
    | [_] => exact .sceneErase _
    | [] | _ :: _ :: _ => exact .illegal
  · match args with
    | slot :: mask :: parts =>
      show Commanded p s
        (if parts.length = partsLength mask then dealSceneLoad slot mask parts s else refuse .illegal s)
      split
      · exact .sceneLoad _ _ _
      · exact .illegal
    | [] | [_] => exact .illegal
  · match args with
    | [_] => exact .sceneProtect _
    | [] | _ :: _ :: _ => exact .illegal
  · match args with
    | [_, _] => exact .timingSetup _ _
    | [] | [_] | _ :: _ :: _ :: _ => exact .illegal
  · match args with
    | [_, _, _, _] => exact .setFrameCount _
    | [] | [_] | [_, _] | [_, _, _] | _ :: _ :: _ :: _ :: _ :: _ => exact .illegal
  · match args with
    | [_, _] => exact .alignSetup _ _
    | [] | [_] | _ :: _ :: _ :: _ => exact .illegal
  · match args with
    | [_, _] => exact .portSetup _ _
    | [] | [_] | _ :: _ :: _ :: _ => exact .illegal
  · match args with
    | [_, _] => exact .noticeMask _
    | [] | [_] | _ :: _ :: _ :: _ => exact .illegal
  · match args with
    | [] => exact .portReset
    | _ :: _ => exact .illegal
  · match args with
    | [] => exact .engineReset
    | _ :: _ => exact .illegal

theorem commanded_dealCovered (p : Port) (covered : List Byte) (s : State) :
    Commanded p s (dealCovered p covered s) := by
  unfold dealCovered
  split
  · exact .illegal
  · split
    · exact .cueCommand _
    · exact commanded_dealCoded p _ _ s

theorem dealt_dealWaiting (p : Port) (f : WaitingFrame) (s : State) : Dealt p s (dealWaiting p f s) := by
  unfold dealWaiting
  split
  · split
    · exact .stream _ _
    · exact .command .illegal
  · exact .command (commanded_dealCovered p _ s)

/-! ### What a row can make of the state -/

/-- How a link event, or a frame that the port answers or holds by itself, moves its port (R164 to R168). -/
inductive PortMove (resetLow : Bool) (ps : PortState) : PortState → Prop where
  | answered (free : resetLow = false) (phase : ps.phase = .receiving) (o : CmdOutcome) :
    PortMove resetLow ps (ps.awaiting o [])
  | broken (free : resetLow = false) (phase : ps.phase = .receiving) :
    PortMove resetLow ps ({ ps with streaming := false }.awaiting .ok [])
  | waits (free : resetLow = false) (phase : ps.phase = .receiving) (f : WaitingFrame) :
    PortMove resetLow ps { ps with
      phase := .awaiting, reply := none, response := [], waiting := ps.waiting ++ [f] }
  | torn (free : resetLow = false) : PortMove resetLow ps { closePort ps with flags := setFlag ps.flags .torn }
  | closes (free : resetLow = false) : PortMove resetLow ps (closePort ps)
  | falls (free : resetLow = false) (phase : ps.phase = .closed) :
    PortMove resetLow ps { ps with phase := .receiving, selectLow := true }
  | lineMoves (held : resetLow = true) (low : Bool) : PortMove resetLow ps { ps with selectLow := low }
  | forms (free : resetLow = false) (phase : ps.phase = .awaiting) (r : Reply) (some : ps.reply = some r) :
    PortMove resetLow ps { ps with phase := .sending, reply := none, response := responseBytes ps r }
  | sent (free : resetLow = false) (phase : ps.phase = .sending) :
    PortMove resetLow ps { ps with phase := .spent, response := [] }

/-- The timed events, with what each does while RESET is not asserted. -/
inductive TimedEvent : Instr → (State → State) → Prop where
  | lineSync (t : Nat) :
    TimedEvent (.referenceLineSync t) fun s => { s with rtg := timeLine (timeAt s.rtg t) s.rtg }
  | frameMarker (t : Nat) : TimedEvent (.referenceFrameMarker t)
      fun s => { s with rtg := { s.rtg with refMarker := some (timeAt s.rtg t) } }
  | inputMarker (i : InputId) (t : Nat) : TimedEvent (.inputFrameMarker i t)
      fun s => s.setInput i { s.input i with marker := some (timeAt s.rtg t) }
  | sample (x y : Nat) (inputs : PerInput Pixel) : TimedEvent (.activeSample x y inputs)
      fun s => if isActive s x y then renderSample x y inputs s else s
  | switchPoint (xready : Bool) : TimedEvent (.switchPoint xready) (switchPointWork xready)
  | timingSetupApply : TimedEvent .timingSetupApply timingSetupWork
  | issue (xready : Bool) : TimedEvent (.issue xready) (issueAll xready)
  | goLive : TimedEvent .goLive goLiveAll
  | engineResetApply : TimedEvent .engineResetApply applyEngineReset
  | sceneCutApply : TimedEvent .sceneCutApply sceneCutStage
  | keyCutApply (k : Keyer) : TimedEvent (.keyCutApply k) fun s => behindSceneCut s (keyCutStage k)
  | cutPerform : TimedEvent .cutPerform fun s => behindSceneCut s fun s => finish (cutStage s)
  | autoStart : TimedEvent .autoStart fun s => behindSceneCut s fun s => finish (autoStage s)
  | takeover : TimedEvent .takeover fun s => behindSceneCut s fun s => finish (takeoverStage s)
  | manualStart : TimedEvent .manualStart fun s => finish (manualStage s)
  | completion : TimedEvent .completion fun s => finish ⟨s, dueCompletion s, true⟩
  | quietLimitExpiry : TimedEvent .quietLimitExpiry quietStep
  | cueRelease : TimedEvent .cueRelease releaseFirst

/-- Everything a row can make of a state. -/
inductive RowEffect (s : State) : Instr → State → Prop where
  | nothing (c : Instr) : RowEffect s c s
  | port (c : Instr) (p : Port) {ps : PortState} (move : PortMove s.resetLow (s.ports.get p) ps)
    (between : betweenSwitchPoints c = true) : RowEffect s c (s.setPort p ps)
  | dealt (c : Instr) (p : Port) {a : Answer} (free : s.resetLow = false)
    (phase : (s.ports.get p).phase = .receiving) (deal : Dealt p (grant p s) a)
    (between : betweenSwitchPoints c = true) : RowEffect s c (reply p a.outcome a.data a.state)
  | timed (c : Instr) {f : State → State} (event : TimedEvent c f) (free : s.resetLow = false) :
    RowEffect s c (f s)
  | powerOn (rsel : BitVec 2) : RowEffect s (.resetAssert rsel) (resetAssertWork rsel s)
  | released : RowEffect s .resetRelease { s with resetLow := false }

/-- A row that waits for RESET to be released does what its event does, or nothing. -/
theorem RowEffect.ofUnlessReset {s : State} {c : Instr} {f : State → State} (event : TimedEvent c f) :
    RowEffect s c (unlessReset f s) := by
  unfold unlessReset
  split
  · exact .nothing c
  · next free => exact .timed c event (by simpa using free)

theorem setPort_setPort (s : State) (p : Port) (a b : PortState) :
    (s.setPort p a).setPort p b = s.setPort p b := by
  cases p <;> rfl

theorem setPort_self (s : State) (p : Port) : s.setPort p (s.ports.get p) = s := by
  cases p <;> rfl

theorem RowEffect.ofCommandFrame {s : State} {c : Instr} (between : betweenSwitchPoints c = true) (p : Port)
    (covered : List Byte) (chk : Byte) :
    RowEffect s c (commandFrame p covered chk (dealCovered p covered) s) := by
  rcases commandFrame_cases p covered chk (dealCovered p covered) s with ⟨-, e⟩ | ⟨⟨free, phase, -⟩, -, e⟩ |
    ⟨⟨free, phase, -⟩, -, -, e⟩ | ⟨⟨free, phase, -⟩, -, -, e⟩ <;> rw [e]
  · exact .nothing c
  · exact .port c p (.answered free phase .check) between
  · exact .dealt c p free phase (.command (commanded_dealCovered p covered _)) between
  · exact .port c p (.waits free phase _) between

theorem takeBreak_eq (p : Port) (s : State) :
    takeBreak p s = s.setPort p ({ s.ports.get p with streaming := false }.awaiting .ok []) := by
  cases p <;> rfl

theorem RowEffect.ofStreamCourse {s : State} {c : Instr} (between : betweenSwitchPoints c = true) (p : Port)
    (value : Half) (mode chk : Byte) : RowEffect s c (streamCourse p value mode chk s) := by
  unfold streamCourse
  split_ifs with stream broken checked
  · obtain ⟨free, phase, -⟩ := (takesStream_iff s p).1 stream
    rw [takeBreak_eq]
    exact .port c p (.broken free phase) between
  · obtain ⟨free, phase, -⟩ := (takesStream_iff s p).1 stream
    rcases passToIntake_cases p ⟨true, be16 value ++ [mode]⟩ (dealStream value mode p) s with
      ⟨-, e⟩ | ⟨-, e⟩ <;> rw [e]
    · exact .dealt c p free phase (.stream value mode) between
    · exact .port c p (.waits free phase _) between
  · obtain ⟨free, phase, -⟩ := (takesStream_iff s p).1 stream
    exact .port c p (.answered free phase .check) between
  · exact .nothing c

theorem betweenSwitchPoints_of_commandFrameOf {c : Instr} {f : Frame} (h : commandFrameOf c = some f) :
    betweenSwitchPoints c = true := by
  cases c <;> simp_all [commandFrameOf, betweenSwitchPoints]

theorem sizedFrameOf_none {p : Port} {head : List Byte} {n : Nat} {body : List Byte} {deal : State → Answer}
    (h : sizedFrameOf p head n body = none) (s : State) : sizedFrame p head n body deal s = s := by
  rw [sizedFrame_eq, h]

theorem execSelectFall_rowEffect (p : Port) (s : State) :
    RowEffect s (.selectFall p) (selectFallWork p s) := by
  unfold selectFallWork
  split_ifs with held falls
  · exact .port _ p (.lineMoves held true) rfl
  · simp only [Bool.and_eq_true, phaseIs, decide_eq_true_eq] at falls
    exact .port _ p (.falls (by simpa using held) falls.1) rfl
  · exact .nothing _

theorem execTransactionEnd_rowEffect (p : Port) (s : State) :
    RowEffect s (.transactionEnd p) (transactionEndWork p s) := by
  unfold transactionEndWork
  split_ifs with held
  · exact .port _ p (.lineMoves held false) rfl
  · exact .port _ p (.closes (by simpa using held)) rfl
  · exact .nothing _

/-- A link event that acts while RESET is not asserted moves its port, or nothing. -/
theorem RowEffect.ofLinkEvent {s : State} {c : Instr} {p : Port} {f : State → State}
    (between : betweenSwitchPoints c = true)
    (h : s.resetLow = false → f s = s ∨ ∃ ps, PortMove s.resetLow (s.ports.get p) ps ∧ f s = s.setPort p ps) :
    RowEffect s c (unlessReset f s) := by
  unfold unlessReset
  split
  · exact .nothing c
  · next free =>
    rcases h (by simpa using free) with e | ⟨ps, move, e⟩ <;> rw [e]
    · exact .nothing c
    · exact .port c p move between

theorem phaseIs_iff (s : State) (p : Port) (ph : LinkPhase) :
    phaseIs s p ph = true ↔ (s.ports.get p).phase = ph := decide_eq_true_iff

/-- What each row can make of a state. -/
theorem exec_rowEffect {c : Instr} {s t : State} (h : exec c s = .next t) : RowEffect s c t := by
  cases hf : commandFrameOf c with
  | some f =>
    cases h.symm.trans (exec_dealCovered hf s)
    exact .ofCommandFrame (betweenSwitchPoints_of_commandFrameOf hf) _ _ _
  | none =>
    cases c with
    | cue p target code body =>
      cases h
      rw [sizedFrameOf_none hf]
      exact .nothing _
    | sceneLoad p slot mask body =>
      cases h
      rw [sizedFrameOf_none hf]
      exact .nothing _
    | streamFrame p value mode chk =>
      cases h
      exact .ofStreamCourse rfl p value mode chk
    | breakFrame p =>
      cases h
      split_ifs with stream
      · obtain ⟨free, phase, -⟩ := (takesStream_iff s p).1 stream
        rw [takeBreak_eq]
        exact .port _ p (.broken free phase) rfl
      · exact .nothing _
    | illegal p code =>
      cases h
      split_ifs with known
      · simp only [Bool.and_eq_true, takesCommand_iff] at known
        obtain ⟨⟨free, phase, -⟩, -⟩ := known
        exact .port _ p (.answered free phase .illegal) rfl
      · exact .nothing _
    | tornFrame p =>
      cases h
      split_ifs with receives
      · simp only [receiving, Bool.and_eq_true, Bool.not_eq_true'] at receives
        rw [raiseTo, mapPort, setPort_setPort]
        simp only [State.port_eq, setPort_ports, PerPort.get_set_self]
        exact .port _ p (.torn receives.1) rfl
      · exact .nothing _
    | responseLost p =>
      cases h
      refine .ofLinkEvent (p := p) rfl fun free => ?_
      split_ifs
      · exact .inr ⟨_, .closes free, rfl⟩
      · exact .inl rfl
    | responseReady p =>
      cases h
      refine .ofLinkEvent (p := p) rfl fun free => ?_
      split_ifs with awaits
      · cases hr : (s.ports.get p).reply with
        | none => exact .inl (by simp [mapPort, formResponse, hr, setPort_self])
        | some r =>
          exact .inr ⟨_, .forms free ((phaseIs_iff s p _).1 awaits) r hr, by simp [mapPort, formResponse, hr]⟩
      · exact .inl rfl
    | responseSent p =>
      cases h
      refine .ofLinkEvent (p := p) rfl fun free => ?_
      split_ifs with sends
      · exact .inr ⟨_, .sent free ((phaseIs_iff s p _).1 sends), rfl⟩
      · exact .inl rfl
    | selectFall p => cases h; exact execSelectFall_rowEffect p s
    | transactionEnd p => cases h; exact execTransactionEnd_rowEffect p s
    | resetAssert rsel => cases h; exact .powerOn rsel
    | resetRelease => cases h; exact .released
    | referenceLineSync t => cases h; exact .ofUnlessReset (.lineSync t)
    | referenceFrameMarker t => cases h; exact .ofUnlessReset (.frameMarker t)
    | inputFrameMarker i t => cases h; exact .ofUnlessReset (.inputMarker i t)
    | activeSample x y inputs => cases h; exact .ofUnlessReset (.sample x y inputs)
    | switchPoint xready => cases h; exact .ofUnlessReset (.switchPoint xready)
    | timingSetupApply => cases h; exact .ofUnlessReset .timingSetupApply
    | issue xready => cases h; exact .ofUnlessReset (.issue xready)
    | goLive => cases h; exact .ofUnlessReset .goLive
    | engineResetApply => cases h; exact .ofUnlessReset .engineResetApply
    | sceneCutApply => cases h; exact .ofUnlessReset .sceneCutApply
    | keyCutApply k => cases h; exact .ofUnlessReset (.keyCutApply k)
    | cutPerform => cases h; exact .ofUnlessReset .cutPerform
    | autoStart => cases h; exact .ofUnlessReset .autoStart
    | takeover => cases h; exact .ofUnlessReset .takeover
    | manualStart => cases h; exact .ofUnlessReset .manualStart
    | completion => cases h; exact .ofUnlessReset .completion
    | quietLimitExpiry => cases h; exact .ofUnlessReset .quietLimitExpiry
    | cueRelease => cases h; exact .ofUnlessReset .cueRelease
    | _ => cases hf

end Sys2Proof.Machine
end

section
/-!
SUPPORT. What the grant of a command leaves alone, whatever the command: an outcome that refuses it leaves the
state as it was and returns no data (R170), and no command moves the last granted port or the queue of rows.
-/

namespace Sys2Proof.Machine

/-! ### A refused command (R170) -/

/-- An answer that refuses gives the state back as it was, with no data. -/
def Answer.RefusesCleanly (a : Answer) (s : State) : Prop :=
  a.outcome.refused = true → a.data = [] ∧ a.state = s

theorem refuse_refusesCleanly (o : CmdOutcome) (s : State) : (refuse o s).RefusesCleanly s :=
  fun _ => ⟨rfl, rfl⟩

theorem refusesCleanly_of_taken {a : Answer} {s : State} (h : a.outcome.refused = false) :
    a.RefusesCleanly s := fun r => absurd r (by simp [h])

theorem checked_refusesCleanly {p : Port} {rs : List Resource} {ok : Bool} {s : State} {rest : Answer}
    (h : rest.RefusesCleanly s) : (checked p rs ok s rest).RefusesCleanly s := by
  rcases checked_cases p rs ok s rest with ⟨-, e⟩ | ⟨-, -, e⟩ | ⟨-, -, e⟩ <;> rw [e]
  · exact refuse_refusesCleanly _ s
  · exact refuse_refusesCleanly _ s
  · exact h

theorem slotChecked_refusesCleanly {slot : Byte} {ok : Bool} {s : State} {rest : Answer}
    (h : rest.RefusesCleanly s) : (slotChecked slot ok s rest).RefusesCleanly s := by
  rcases slotChecked_cases slot ok s rest with ⟨-, e⟩ | ⟨-, -, e⟩ | ⟨-, -, e⟩ <;> rw [e]
  · exact refuse_refusesCleanly _ s
  · exact refuse_refusesCleanly _ s
  · exact h

theorem unlessSame_refusesCleanly (b : Bool) (t s : State) : (unlessSame b t s).RefusesCleanly s := by
  rcases unlessSame_cases b t s with ⟨-, e⟩ | ⟨-, e⟩ <;> rw [e] <;> exact refusesCleanly_of_taken rfl

theorem ite_refusesCleanly {c : Prop} [Decidable c] {a b : Answer} {s : State} (ha : a.RefusesCleanly s)
    (hb : b.RefusesCleanly s) : (if c then a else b).RefusesCleanly s := by
  split
  · exact ha
  · exact hb

theorem dealCueCommand_refusesCleanly (c : CueCommand) (p : Port) (s : State) :
    (dealCueCommand c p s).RefusesCleanly s := by
  have refused := fun o => refuse_refusesCleanly o s
  cases c with
  | selectBus bus src =>
    refine checked_refusesCleanly ?_
    split
    · exact ite_refusesCleanly (refused _) (unlessSame_refusesCleanly _ _ _)
    · exact refused _
  | setNext layers type =>
    refine checked_refusesCleanly ?_
    split
    · exact unlessSame_refusesCleanly _ _ _
    · exact refused _
  | setRate rate =>
    exact checked_refusesCleanly
      (ite_refusesCleanly (refusesCleanly_of_taken rfl) (unlessSame_refusesCleanly _ _ _))
  | keySetup k f c g o =>
    refine checked_refusesCleanly ?_
    split
    · exact ite_refusesCleanly (refusesCleanly_of_taken rfl) (unlessSame_refusesCleanly _ _ _)
    · exact refused _
  | keyCrop k e l r t b =>
    refine checked_refusesCleanly ?_
    split
    · exact ite_refusesCleanly (refusesCleanly_of_taken rfl) (unlessSame_refusesCleanly _ _ _)
    · exact refused _
  | keyOrder a b c d =>
    refine checked_refusesCleanly ?_
    split
    · exact unlessSame_refusesCleanly _ _ _
    · exact refused _
  | wipeSetup pat e rh rv cx cy f =>
    refine checked_refusesCleanly ?_
    split
    · exact unlessSame_refusesCleanly _ _ _
    · exact refused _
  | matteSet => exact checked_refusesCleanly (refusesCleanly_of_taken rfl)
  | cut => exact checked_refusesCleanly (refusesCleanly_of_taken rfl)
  | auto =>
    refine checked_refusesCleanly ?_
    split
    · exact refused _
    · exact refused _
    · exact refusesCleanly_of_taken rfl
    · exact refusesCleanly_of_taken rfl
  | keyCut k t =>
    refine checked_refusesCleanly ?_
    split
    · exact ite_refusesCleanly (refused _) (unlessSame_refusesCleanly _ _ _)
    · exact refused _
  | sceneRecall slot mode =>
    refine checked_refusesCleanly ?_
    split
    · refine ite_refusesCleanly (refused _) (refusesCleanly_of_taken ?_)
      dsimp only [taken]
      split <;> rfl
    · exact refused _

theorem idleValue_refusesCleanly (p : Port) (v : Nat) (s t : State) : (idleValue p v s).RefusesCleanly t := by
  unfold idleValue
  split <;> exact refusesCleanly_of_taken rfl

theorem manualValue_refusesCleanly (p : Port) (v : Nat) (s t : State) :
    (manualValue p v s).RefusesCleanly t := by
  unfold manualValue
  exact ite_refusesCleanly (refusesCleanly_of_taken rfl) (refusesCleanly_of_taken rfl)

theorem dealLeverValue_refusesCleanly (field : Half) (p : Port) (s : State) :
    (dealLeverValue field p s).RefusesCleanly s := by
  refine checked_refusesCleanly ?_
  dsimp only
  split
  · exact refuse_refusesCleanly _ s
  · exact idleValue_refusesCleanly p _ s s
  · exact manualValue_refusesCleanly p _ s s
  · exact ite_refusesCleanly (refusesCleanly_of_taken rfl) (refuse_refusesCleanly _ s)
  · exact ite_refusesCleanly (refusesCleanly_of_taken rfl) (refuse_refusesCleanly _ s)

/-- Every command refuses cleanly (R170). A stream frame does not, since it may end streaming (R167). -/
theorem Commanded.refusesCleanly {p : Port} {s : State} {a : Answer} (h : Commanded p s a) :
    a.RefusesCleanly s := by
  have refused := fun o => refuse_refusesCleanly o s
  have written := fun b t => unlessSame_refusesCleanly b t s
  have taken : ∀ {a : Answer}, a.outcome.refused = false → a.RefusesCleanly s := refusesCleanly_of_taken
  cases h with
  | illegal => exact refused _
  | stateRead | timingRead | tallyChanges | clipRead | cueList | noticeRead | portReset => exact taken rfl
  | inputRead input =>
    unfold dealInputRead
    split
    · exact taken rfl
    · exact refused _
  | tallyRead start count window => exact ite_refusesCleanly (taken rfl) (refused _)
  | sceneRead slot =>
    unfold dealSceneRead
    split
    · split <;> exact taken rfl
    · exact refused _
  | cueCommand c => exact dealCueCommand_refusesCleanly c p s
  | limiterSetup | alignSetup | sceneProtect => exact checked_refusesCleanly (written _ _)
  | lock mask => exact checked_refusesCleanly (ite_refusesCleanly (taken rfl) (taken rfl))
  | unlock mask => exact checked_refusesCleanly (ite_refusesCleanly (taken rfl) (taken rfl))
  | lever value mode =>
    unfold dealLever
    dsimp only
    split_ifs with streams
    · exact taken streams.2
    · exact dealLeverValue_refusesCleanly value p s
  | leverRelease => exact ite_refusesCleanly (taken rfl) (taken rfl)
  | cue target code args =>
    unfold dealCue
    dsimp only
    split
    · exact refused _
    · exact checked_refusesCleanly
        (ite_refusesCleanly (refused _) (ite_refusesCleanly (refused _) (taken rfl)))
  | cueCancel tag =>
    refine ite_refusesCleanly (taken rfl) ?_
    split
    · exact refused _
    · exact ite_refusesCleanly (refused _) (taken rfl)
  | sceneSave slot mask =>
    refine slotChecked_refusesCleanly ?_
    split
    · exact taken rfl
    · exact refused _
  | sceneLoad slot mask parts =>
    refine slotChecked_refusesCleanly ?_
    split
    · exact taken rfl
    · exact refused _
  | sceneErase slot =>
    refine slotChecked_refusesCleanly ?_
    split
    · exact written _ _
    · exact refused _
  | timingSetup raster enable =>
    refine checked_refusesCleanly ?_
    split
    · exact ite_refusesCleanly (refused _) (ite_refusesCleanly (taken rfl)
        (ite_refusesCleanly (taken rfl) (taken rfl)))
    · exact refused _
  | setFrameCount value => exact checked_refusesCleanly (taken rfl)
  | portSetup format quiet =>
    unfold dealPortSetup
    split
    · exact refused _
    · exact ite_refusesCleanly (refused _) (written _ _)
  | noticeMask mask => exact ite_refusesCleanly (refused _) (written _ _)
  | engineReset => exact checked_refusesCleanly (taken rfl)

/-! ### What every command keeps -/

/-- The fields of a port that only its link moves (R166, R169). -/
structure SameLink (ps qs : PortState) : Prop where
  phase : qs.phase = ps.phase := by rfl
  selectLow : qs.selectLow = ps.selectLow := by rfl
  reply : qs.reply = ps.reply := by rfl
  response : qs.response = ps.response := by rfl
  waiting : qs.waiting = ps.waiting := by rfl

/-- A port's notice word, mask and quiet limit lie in their ranges (R171, R173, R174). -/
structure PortRanges (ps : PortState) : Prop where
  flags : ps.flags.toNat < 1024
  mask : ps.mask.toNat < 1024
  quiet : 1 ≤ ps.quietLimit ∧ ps.quietLimit ≤ 255

/-- What a command leaves of a port that is not about its own transaction: the link, and the ranges. -/
structure PortKeeps (ps qs : PortState) : Prop where
  link : SameLink ps qs := by exact {}
  ranges : PortRanges ps → PortRanges qs := by exact id

/-- The alignment thresholds lie in their ranges (R31). -/
def thresholdsInRange (b : Bi) : Prop := 1 ≤ b.lMin ∧ b.lMin ≤ b.lMax ∧ b.lMax ≤ 7

/-- No pending timing setup is the pair in force (R14). -/
def pendingIsNew (r : Rtg) : Prop := r.pendingSetup ≠ some ⟨r.raster, r.enable⟩

/-- What every command and stream frame keeps, block by block: commands write requests, setups, pending
actions, locks, cues and scenes, and leave alone what the frame in progress is made of. -/
structure CommandKeeps (s t : State) : Prop where
  pending : t.pending = s.pending := by rfl
  resetLow : t.resetLow = s.resetLow := by rfl
  lastGranted : t.lastGranted = s.lastGranted := by rfl
  rtg : ∃ ts c, t.rtg = { s.rtg with pendingSetup := ts, counter := c } := by exact ⟨_, _, rfl⟩
  pendingNew : pendingIsNew s.rtg → pendingIsNew t.rtg := by exact id
  inputs : ∀ i, ∃ r q a, t.bi.inputs.get i =
    { s.bi.inputs.get i with requested := r, issued := q, awaiting := a } := by exact fun _ => ⟨_, _, _, rfl⟩
  thresholds : thresholdsInRange s.bi → thresholdsInRange t.bi := by exact id
  burst : t.xl.burst = s.xl.burst := by rfl
  lastSent : ∀ i, t.xl.lastSent.get i = s.xl.lastSent.get i ∨ t.xl.lastSent.get i = none := by
    exact fun _ => .inl rfl
  live : t.mes.live = s.mes.live := by rfl
  mode : t.tc.mode = s.tc.mode := by rfl
  pos : t.tc.pos = s.tc.pos := by rfl
  role : t.tc.role = s.tc.role := by rfl
  onAir : t.tc.onAir = s.tc.onAir := by rfl
  inFlight : t.tc.inFlight = s.tc.inFlight := by rfl
  direction : t.wg.direction = s.wg.direction := by rfl
  cmp : ∃ b, t.cmp = { s.cmp with sticky := b } := by exact ⟨_, rfl⟩
  table : t.tu.table = s.tu.table := by rfl
  generation : t.tu.generation = s.tu.generation := by rfl
  ports : ∀ q, PortKeeps (s.ports.get q) (t.ports.get q) := by exact fun _ => {}

theorem CommandKeeps.refl (s : State) : CommandKeeps s s := {}

theorem SameLink.trans {a b c : PortState} (h : SameLink a b) (k : SameLink b c) : SameLink a c :=
  ⟨k.phase.trans h.phase, k.selectLow.trans h.selectLow, k.reply.trans h.reply,
    k.response.trans h.response, k.waiting.trans h.waiting⟩

theorem CommandKeeps.trans {s t u : State} (h : CommandKeeps s t) (k : CommandKeeps t u) :
    CommandKeeps s u where
  pending := k.pending.trans h.pending
  resetLow := k.resetLow.trans h.resetLow
  lastGranted := k.lastGranted.trans h.lastGranted
  rtg := by
    obtain ⟨_, _, eh⟩ := h.rtg
    obtain ⟨ts, c, ek⟩ := k.rtg
    exact ⟨ts, c, by rw [ek, eh]⟩
  pendingNew := k.pendingNew ∘ h.pendingNew
  inputs i := by
    obtain ⟨_, _, _, eh⟩ := h.inputs i
    obtain ⟨r, q, a, ek⟩ := k.inputs i
    exact ⟨r, q, a, by rw [ek, eh]⟩
  thresholds := k.thresholds ∘ h.thresholds
  burst := k.burst.trans h.burst
  lastSent i := (k.lastSent i).elim (fun e => e ▸ h.lastSent i) .inr
  live := k.live.trans h.live
  mode := k.mode.trans h.mode
  pos := k.pos.trans h.pos
  role := k.role.trans h.role
  onAir := k.onAir.trans h.onAir
  inFlight := k.inFlight.trans h.inFlight
  direction := k.direction.trans h.direction
  cmp := by
    obtain ⟨_, eh⟩ := h.cmp
    obtain ⟨b, ek⟩ := k.cmp
    exact ⟨b, by rw [ek, eh]⟩
  table := k.table.trans h.table
  generation := k.generation.trans h.generation
  ports q := ⟨(h.ports q).link.trans (k.ports q).link, (k.ports q).ranges ∘ (h.ports q).ranges⟩

/-! ### The operations that commands are made of -/

theorem SameBeyondRequests.commandKeeps {s t : State} (h : SameBeyondRequests s t) : CommandKeeps s t := by
  obtain ⟨mode, pos, role, onAir, inFlight⟩ := h.controller
  exact {
    pending := h.pending, resetLow := h.resetLow, lastGranted := h.lastGranted
    rtg := ⟨_, _, h.rtg⟩, pendingNew := by rw [h.rtg]; exact id
    inputs := fun i => (h.inputs i).elim fun src e => ⟨src, _, _, e⟩
    thresholds := by simp only [thresholdsInRange, h.thresholds, imp_self]
    burst := by rw [h.xl], lastSent := fun i => .inl (by rw [h.xl])
    live := h.live, mode := mode, pos := pos, role := role, onAir := onAir, inFlight := inFlight
    direction := h.direction, cmp := ⟨_, h.cmp⟩, table := by rw [h.tu], generation := by rw [h.tu]
    ports := fun q => h.ports ▸ {} }

theorem portKeeps_raised {ps : PortState} (n : Notice) : PortKeeps ps { ps with flags := setFlag ps.flags n } :=
  ⟨{}, fun h => ⟨setFlag_lt h.flags n, h.mask, h.quiet⟩⟩

theorem setPort_commandKeeps (s : State) (p : Port) {ps : PortState} (h : PortKeeps (s.ports.get p) ps) :
    CommandKeeps s (s.setPort p ps) where
  ports q := by
    by_cases e : q = p
    · subst e
      simpa using h
    · simp only [setPort_ports, PerPort.get_set_ne _ _ e]
      exact {}

theorem raiseTo_commandKeeps (n : Notice) (p : Port) (s : State) : CommandKeeps s (raiseTo n p s) :=
  setPort_commandKeeps s p (portKeeps_raised n)

theorem raiseAll_commandKeeps (n : Notice) (s : State) : CommandKeeps s (raiseAll n s) where
  ports q := by
    simp only [raiseAll, PerPort.get_map]
    exact portKeeps_raised n

theorem raiseAllWhen_commandKeeps (b : Bool) (n : Notice) (s : State) : CommandKeeps s (raiseAllWhen b n s) := by
  rcases raiseAllWhen_cases b n s with ⟨-, e⟩ | ⟨-, e⟩ <;> rw [e]
  · exact raiseAll_commandKeeps n s
  · exact .refl s

theorem raiseEach_commandKeeps (n : Notice) (pick : Port → Bool) (s : State) :
    CommandKeeps s (raiseEach n pick s) where
  ports q := by
    simp only [raiseEach, PerPort.get_build]
    split
    · exact portKeeps_raised n
    · exact {}

theorem setStreaming_commandKeeps (p : Port) (on : Bool) (s : State) : CommandKeeps s (setStreaming p on s) :=
  setPort_commandKeeps s p ⟨{}, fun h => ⟨h.flags, h.mask, h.quiet⟩⟩

theorem setLocks_commandKeeps (locks : PerResource (Option Port)) (s : State) :
    CommandKeeps s (setLocks locks s) := {}

theorem freeLocks_commandKeeps (p : Port) (pick : Resource → Bool) (s : State) :
    CommandKeeps s (freeLocks p pick s) :=
  (setLocks_commandKeeps _ s).trans (raiseAllWhen_commandKeeps _ .locks _)

theorem releaseHold_commandKeeps (s : State) : CommandKeeps s (releaseHold s) := {}

theorem losePickups_commandKeeps (spared : Option Port) (s : State) : CommandKeeps s (losePickups spared s) :=
  (raiseEach_commandKeeps .leverLost _ s).trans (t := raiseEach _ _ s) {}

theorem dropCues_commandKeeps (keep : CueEntry → Bool) (s : State) : CommandKeeps s (dropCues keep s) :=
  .trans (t := setEntries _ s) {} (raiseEach_commandKeeps .cueDrop _ _)

/-! ### The dealing of each command -/

theorem checked_commandKeeps {p : Port} {rs : List Resource} {ok : Bool} {s : State} {rest : Answer}
    (h : CommandKeeps s rest.state) : CommandKeeps s (checked p rs ok s rest).state := by
  rcases checked_cases p rs ok s rest with ⟨-, e⟩ | ⟨-, -, e⟩ | ⟨-, -, e⟩ <;> rw [e]
  · exact .refl s
  · exact .refl s
  · exact h

theorem slotChecked_commandKeeps {slot : Byte} {ok : Bool} {s : State} {rest : Answer}
    (h : CommandKeeps s rest.state) : CommandKeeps s (slotChecked slot ok s rest).state := by
  rcases slotChecked_cases slot ok s rest with ⟨-, e⟩ | ⟨-, -, e⟩ | ⟨-, -, e⟩ <;> rw [e]
  · exact .refl s
  · exact .refl s
  · exact h

theorem unlessSame_commandKeeps {b : Bool} {s t : State} (h : CommandKeeps s t) :
    CommandKeeps s (unlessSame b t s).state := by
  rcases unlessSame_cases b t s with ⟨-, e⟩ | ⟨-, e⟩ <;> rw [e]
  · exact .refl s
  · exact h

theorem ite_commandKeeps {c : Prop} [Decidable c] {s : State} {a b : Answer} (ha : CommandKeeps s a.state)
    (hb : CommandKeeps s b.state) : CommandKeeps s (if c then a else b).state := by
  split
  · exact ha
  · exact hb

theorem setLever_commandKeeps (p : Port) (l : Lever) (s : State) : CommandKeeps s (s.setLever p l) := {}

theorem dealLeverValue_commandKeeps (field : Half) (p : Port) (s : State) :
    CommandKeeps s (dealLeverValue field p s).state := by
  refine checked_commandKeeps ?_
  dsimp only
  split
  · exact .refl s
  · unfold idleValue
    split <;> exact {}
  · refine ite_commandKeeps ?_ (setLever_commandKeeps p _ s)
    exact .trans (t := holdLever p (s.setLever p _)) {} (losePickups_commandKeeps _ _)
  · exact ite_commandKeeps {} (.refl s)
  · exact ite_commandKeeps {} (.refl s)

theorem dealTimingSetup_commandKeeps (raster enable : Byte) (p : Port) (s : State) :
    CommandKeeps s (dealTimingSetup raster enable p s).state := by
  refine checked_commandKeeps ?_
  split
  · next r on _ _ =>
    dsimp only
    split_ifs with busy ignored withdraws
    · exact .refl s
    · exact .refl s
    · exact { pendingNew := fun _ => by simp [pendingIsNew, setPendingTiming, taken] }
    · refine { pendingNew := fun _ => ?_ }
      simp only [pendingIsNew, setPendingTiming, taken, ne_eq, Option.some.injEq, TimingPair.mk.injEq]
      simpa using withdraws
  · exact .refl s

theorem cuesPortReset_commandKeeps (p : Port) (s : State) : CommandKeeps s (cuesPortReset p s) := {}

theorem leverPortReset_commandKeeps (p : Port) (s : State) : CommandKeeps s (leverPortReset p s) := by
  refine .trans ?_ (setLever_commandKeeps p _ _)
  split
  · exact releaseHold_commandKeeps s
  · exact .refl s

theorem resetPort_ranges (ps : PortState) : PortRanges (resetPort ps) :=
  ⟨show (0 : Half).toNat < 1024 by decide, show allNotices.toNat < 1024 by decide,
    show 1 ≤ 50 ∧ 50 ≤ 255 by decide⟩

theorem portResetWork_commandKeeps (p : Port) (s : State) : CommandKeeps s (portResetWork p s) := by
  have port : CommandKeeps s (mapPort p resetPort s) :=
    setPort_commandKeeps s p ⟨{}, fun _ => resetPort_ranges _⟩
  have lever := port.trans (leverPortReset_commandKeeps p _)
  exact (lever.trans (cuesPortReset_commandKeeps p _)).trans
    (.trans (t := setChanges p ⟨[], true⟩ _) {} (freeLocks_commandKeeps p _ _))

theorem freeAllLocks_commandKeeps (s : State) : CommandKeeps s (freeAllLocks s) :=
  (setLocks_commandKeeps _ s).trans (raiseAllWhen_commandKeeps _ .locks _)

theorem leverEngineReset_commandKeeps (p : Port) (s : State) : CommandKeeps s (leverEngineReset p s) :=
  .trans (t := raiseEach .leverLost _ s) (raiseEach_commandKeeps .leverLost _ s) {}

theorem engineResetWork_commandKeeps (p : Port) (s : State) : CommandKeeps s (engineResetWork p s) := by
  have setups : CommandKeeps s (setupEngineReset (inputsEngineReset s)) :=
    { inputs := fun i => ⟨black, black, false, by simp [setupEngineReset, inputsEngineReset]⟩
      lastSent := fun i => .inr (by simp [setupEngineReset, inputsEngineReset]) }
  have locks := setups.trans (freeAllLocks_commandKeeps _)
  have pending : CommandKeeps s (mapTc tcEngineReset (freeAllLocks (setupEngineReset (inputsEngineReset s)))) :=
    locks.trans {}
  exact (pending.trans (leverEngineReset_commandKeeps p _)).trans (dropCues_commandKeeps _ _)

/-- Every command keeps what `CommandKeeps` lists. -/
theorem Commanded.commandKeeps {p : Port} {s : State} {a : Answer} (h : Commanded p s a) :
    CommandKeeps s a.state := by
  cases h with
  | illegal | stateRead | timingRead | tallyChanges | clipRead | cueList => exact {}
  | inputRead input =>
    unfold dealInputRead
    split <;> exact .refl s
  | tallyRead => exact ite_commandKeeps (.refl s) (.refl s)
  | sceneRead slot =>
    unfold dealSceneRead
    split
    · split <;> exact .refl s
    · exact .refl s
  | noticeRead =>
    exact setPort_commandKeeps s p ⟨{}, fun h => ⟨show (0 : Half).toNat < 1024 by decide, h.mask, h.quiet⟩⟩
  | cueCommand c => exact (dealCueCommand_same c p s).commandKeeps
  | limiterSetup => exact checked_commandKeeps (unlessSame_commandKeeps {})
  | lock mask =>
    refine checked_commandKeeps (ite_commandKeeps (.refl s) ?_)
    exact (setLocks_commandKeeps _ s).trans (raiseAll_commandKeeps .locks _)
  | unlock mask => exact checked_commandKeeps (ite_commandKeeps (freeLocks_commandKeeps p _ s) (.refl s))
  | lever value mode =>
    exact ite_commandKeeps ((dealLeverValue_commandKeeps value p s).trans (setStreaming_commandKeeps p true _))
      (dealLeverValue_commandKeeps value p s)
  | leverRelease => exact ite_commandKeeps (releaseHold_commandKeeps s) (.refl s)
  | cue target code args =>
    unfold dealCue
    dsimp only
    split
    · exact .refl s
    · exact checked_commandKeeps (ite_commandKeeps (.refl s) (ite_commandKeeps (.refl s) {}))
  | cueCancel tag =>
    refine ite_commandKeeps {} ?_
    split
    · exact .refl s
    · exact ite_commandKeeps (.refl s) {}
  | sceneSave slot mask =>
    refine slotChecked_commandKeeps ?_
    split
    · exact {}
    · exact .refl s
  | sceneLoad slot mask parts =>
    refine slotChecked_commandKeeps ?_
    split
    · exact {}
    · exact .refl s
  | sceneErase slot =>
    refine slotChecked_commandKeeps ?_
    split
    · exact unlessSame_commandKeeps {}
    · exact .refl s
  | sceneProtect count => exact checked_commandKeeps (unlessSame_commandKeeps {})
  | timingSetup raster enable => exact dealTimingSetup_commandKeeps raster enable p s
  | setFrameCount value =>
    exact checked_commandKeeps (.trans (t := setCounter value s) {} (dropCues_commandKeeps _ _))
  | alignSetup lMin lMax =>
    unfold dealAlignSetup checked
    split_ifs with locked beyond
    · exact .refl s
    · exact .refl s
    · refine unlessSame_commandKeeps { thresholds := fun _ => ?_ }
      simpa [alignInRange, thresholdsInRange, Nat.one_le_iff_ne_zero, and_assoc] using beyond
  | portSetup format quiet =>
    unfold dealPortSetup
    split
    · exact .refl s
    · split_ifs with zero
      · exact .refl s
      · refine unlessSame_commandKeeps (setPort_commandKeeps s p ⟨{}, fun h => ⟨h.flags, h.mask, ?_⟩⟩)
        have := quiet.isLt
        have nonzero : quiet.toNat ≠ 0 := fun h => zero (BitVec.eq_of_toNat_eq h)
        dsimp only
        omega
  | noticeMask mask =>
    unfold dealNoticeMask
    split_ifs with beyond
    · exact .refl s
    · exact unlessSame_commandKeeps
        (setPort_commandKeeps s p ⟨{}, fun h => ⟨h.flags, Nat.lt_of_not_le beyond, h.quiet⟩⟩)
  | portReset => exact portResetWork_commandKeeps p s
  | engineReset => exact checked_commandKeeps (engineResetWork_commandKeeps p s)

theorem Dealt.commandKeeps {p : Port} {s : State} {a : Answer} (h : Dealt p s a) : CommandKeeps s a.state := by
  cases h with
  | command h => exact h.commandKeeps
  | stream value mode =>
    exact ite_commandKeeps (dealLeverValue_commandKeeps value p s)
      ((dealLeverValue_commandKeeps value p s).trans (setStreaming_commandKeeps p false _))

/-! ### The row of a command -/

/-- Settles O6: the intake grants the command and gives its answer to the port, and whatever the command it
refuses cleanly and keeps the last granted port. -/
theorem refusedCommandChangesOnlyItsResponse : Obligations.RefusedCommandChangesOnlyItsResponse := by
  intro c p s h
  have ⟨_, _, covered, hc⟩ := h
  have dealt := commanded_dealCovered p covered (grant p s)
  have granted := dealt.commandKeeps.lastGranted
  refine ⟨_, (dealCovered p covered (grant p s)).outcome, (dealCovered p covered (grant p s)).data,
    exec_accepted h hc, granted, by simp [intake_eq, reply], by simp [intake_eq, reply], fun refused => ?_⟩
  obtain ⟨noData, same⟩ := dealt.refusesCleanly refused
  exact ⟨noData, by rw [intake_eq, noData, same]; rfl⟩

end Sys2Proof.Machine
end

section
/-!
SUPPORT. The picture between two switch points (R109): what an active sample is rendered from determines both of
its output samples, and no row between two switch points touches it.
-/

namespace Sys2Proof.Machine

/-! ### The samples depend on the picture alone -/

section
variable {s t : State} (h : t.picture = s.picture)
include h

theorem picture_live : t.mes.live = s.mes.live := congrArg Picture.live h
theorem picture_mode : t.tc.mode = s.tc.mode := congrArg Picture.mode h
theorem picture_pos : t.tc.pos = s.tc.pos := congrArg Picture.pos h
theorem picture_role : t.tc.role = s.tc.role := congrArg Picture.role h
theorem picture_onAir : t.tc.onAir = s.tc.onAir := congrArg Picture.onAir h
theorem picture_inFlight : t.tc.inFlight = s.tc.inFlight := congrArg Picture.inFlight h
theorem picture_direction : t.wg.direction = s.wg.direction := congrArg Picture.direction h
theorem picture_raster : t.rtg.raster = s.rtg.raster := congrArg Picture.raster h

theorem picture_source (i : InputId) : (t.input i).live = (s.input i).live := by
  have same : t.bi.inputs.map InputRec.live = s.bi.inputs.map InputRec.live := congrArg Picture.sources h
  simpa using congrArg (PerInput.get · i) same

theorem picture_faulted (i : InputId) : (t.input i).faulted = (s.input i).faulted := by
  have same : t.bi.inputs.map InputRec.faulted = s.bi.inputs.map InputRec.faulted := congrArg Picture.faulted h
  simpa using congrArg (PerInput.get · i) same

theorem inFlightSelection_of_picture : inFlightSelection t = inFlightSelection s := by
  simp only [inFlightSelection, picture_inFlight h]

theorem inputSample_of_picture (x : Nat) (inputs : PerInput Pixel) (i : InputId) :
    inputSample t x inputs i = inputSample s x inputs i := by
  simp only [inputSample, sourceSample, picture_faulted h, picture_source h, picture_raster h, picture_live h]

theorem mixFactor_of_picture (x y : Nat) : mixFactor t x y = mixFactor s x y := by
  simp only [mixFactor, picture_inFlight h, picture_pos h, picture_raster h, picture_live h,
    picture_direction h]

theorem keySignal_of_picture (x y : Nat) (inputs : PerInput Pixel) (k : Keyer) :
    keySignal t x y inputs k = keySignal s x y inputs k := by
  simp only [keySignal, keyerFaulted, picture_faulted h, picture_live h, inputSample_of_picture h] <;> rfl

theorem keyCoefficient_of_picture (k : Keyer) (s2 m : Nat) :
    keyCoefficient t k s2 m = keyCoefficient s k s2 m := by
  simp only [keyCoefficient, inFlightSelection_of_picture h, picture_onAir h]

theorem layer_of_picture (x : Nat) (inputs : PerInput Pixel) (bg : Triple) (k : Keyer → Nat) :
    layer t x inputs bg k = layer s x inputs bg k := by
  simp only [layer, inputSample_of_picture h, picture_live h]

theorem programComposite_of_picture (x y : Nat) (inputs : PerInput Pixel) :
    programComposite t x y inputs = programComposite s x y inputs := by
  simp only [programComposite, programBackground, layer_of_picture h, keyCoefficient_of_picture h,
    keySignal_of_picture h, mixFactor_of_picture h, inputSample_of_picture h, inFlightSelection_of_picture h,
    picture_role h]

theorem previewSelection_of_picture : previewSelection t = previewSelection s := by
  simp only [previewSelection, picture_mode h, picture_live h, inFlightSelection_of_picture h]

theorem previewComposite_of_picture (x y : Nat) (inputs : PerInput Pixel) :
    previewComposite t x y inputs = previewComposite s x y inputs := by
  simp only [previewComposite, backgroundAtEnd, onAirAtEnd, layer_of_picture h, keySignal_of_picture h,
    inputSample_of_picture h, previewSelection_of_picture h, picture_role h, picture_onAir h] <;> rfl

end

/-! ### The rows between two switch points -/

/-- All that decides the samples which leave the engine, and the published tally. -/
structure FrameKept (s t : State) : Prop where
  picture : t.picture = s.picture := by rfl
  table : t.tu.table = s.tu.table := by rfl
  program : t.cmp.program = s.cmp.program := by rfl
  preview : t.cmp.preview = s.cmp.preview := by rfl
  resetLow : t.resetLow = s.resetLow := by rfl
  frameStart : t.rtg.frameStart = s.rtg.frameStart := by rfl
  frameLen : t.rtg.frameLen = s.rtg.frameLen := by rfl

/-- The samples that a rendering of a position sends, and otherwise the samples the outputs hold. -/
theorem outputsAt_eq (s : State) (x y : Nat) (inputs : PerInput Pixel) :
    outputsAt s x y inputs =
      if s.resetLow = false ∧ isActive s x y = true then
        some (outSample x (limit s.mes.live.limiter (programComposite s x y inputs)),
          outSample x (limit s.mes.live.limiter (previewComposite s x y inputs)))
      else match s.cmp.program, s.cmp.preview with
        | some a, some b => some (a, b)
        | _, _ => none := by
  unfold outputsAt
  rcases execActiveSample_cases x y inputs s with ⟨free, active, e⟩ | ⟨held, e⟩
  · rw [if_pos ⟨free, active⟩, show exec (.activeSample x y inputs) s = _ from e]
    rfl
  · rw [if_neg (by rintro ⟨free, active⟩; simp [free, active] at held),
      show exec (.activeSample x y inputs) s = _ from e] <;> rfl

theorem FrameKept.outputsAt {s t : State} (h : FrameKept s t) (x y : Nat) (inputs : PerInput Pixel) :
    outputsAt t x y inputs = outputsAt s x y inputs := by
  simp only [outputsAt_eq, isActive, isOutput, h.resetLow, h.frameStart, h.frameLen, h.program, h.preview,
    picture_raster h.picture, picture_live h.picture, programComposite_of_picture h.picture,
    previewComposite_of_picture h.picture] <;> rfl

theorem CommandKeeps.frameKept {s t : State} (h : CommandKeeps s t) : FrameKept s t := by
  obtain ⟨ts, c, hr⟩ := h.rtg
  obtain ⟨b, hc⟩ := h.cmp
  have sources : t.bi.inputs.map InputRec.live = s.bi.inputs.map InputRec.live := PerInput.ext_get fun i => by
    obtain ⟨_, _, _, e⟩ := h.inputs i
    simp only [PerInput.get_map, e]
  have faulted : t.bi.inputs.map InputRec.faulted = s.bi.inputs.map InputRec.faulted :=
    PerInput.ext_get fun i => by
      obtain ⟨_, _, _, e⟩ := h.inputs i
      simp only [PerInput.get_map, e]
  exact {
    picture := by
      simp only [State.picture, h.live, h.mode, h.pos, h.role, h.onAir, h.inFlight, h.direction, sources,
        faulted, hr]
    table := h.table, program := by rw [hc], preview := by rw [hc], resetLow := h.resetLow
    frameStart := by rw [hr], frameLen := by rw [hr] }

theorem timeLine_frameKept (now : Nat) (s : State) : FrameKept s { s with rtg := timeLine now s.rtg } := by
  unfold timeLine
  split <;> exact {}

theorem inputMarker_frameKept (i : InputId) (m : Option Nat) (s : State) :
    FrameKept s (s.setInput i { s.input i with marker := m }) := by
  have field {α : Type} (f : InputRec → α) (hf : ∀ r : InputRec, f { r with marker := m } = f r) :
      (s.bi.inputs.set i { s.input i with marker := m }).map f = s.bi.inputs.map f :=
    PerInput.ext_get fun j => by
      by_cases e : j = i
      · subst e; simp [hf]
      · simp [e]
  exact { picture := by
            simp only [State.picture, State.setInput, field InputRec.live fun _ => rfl,
              field InputRec.faulted fun _ => rfl] }

/-- A row between two switch points keeps what the samples and the tally are made of. -/
theorem RowEffect.frameKept {s t : State} {c : Instr} (h : RowEffect s c t)
    (between : betweenSwitchPoints c = true) : FrameKept s t := by
  cases h with
  | nothing | port => exact {}
  | dealt c p free phase deal =>
    have dealt := deal.commandKeeps.frameKept
    exact ⟨dealt.picture, dealt.table, dealt.program, dealt.preview, dealt.resetLow, dealt.frameStart,
      dealt.frameLen⟩
  | timed c event free =>
    cases event with
    | lineSync t => exact timeLine_frameKept _ s
    | frameMarker t => exact {}
    | inputMarker i t => exact inputMarker_frameKept i _ s
    | _ => cases between
  | powerOn | released => cases between

/-- Settles O49: every row between two switch points keeps the picture, and the picture determines the
samples. -/
theorem commandsLeaveThePictureAlone : Obligations.CommandsLeaveThePictureAlone := by
  intro c s t between h
  have kept := (exec_rowEffect h).frameKept between
  exact ⟨kept.picture, kept.table, ⟨kept.program.symm, kept.preview.symm⟩, kept.outputsAt⟩

end Sys2Proof.Machine
end

section
/-!
SUPPORT. What every step keeps: a property of the blocks holds after a step when it holds after every answer of
the intake, every timed event and the RESET pin, from a state that meets the invariants. The ports' links move
while a command waits, so the blocks' invariants are gathered apart from theirs, in `EngineInv`.
-/

namespace Sys2Proof.Machine

/-- Two states agree on every block but the ports. -/
structure SameBlocks (s t : State) : Prop where
  rtg : t.rtg = s.rtg := by rfl
  bi : t.bi = s.bi := by rfl
  xl : t.xl = s.xl := by rfl
  mes : t.mes = s.mes := by rfl
  tc : t.tc = s.tc := by rfl
  lu : t.lu = s.lu := by rfl
  wg : t.wg = s.wg := by rfl
  cmp : t.cmp = s.cmp := by rfl
  tu : t.tu = s.tu := by rfl
  cq : t.cq = s.cq := by rfl
  ss : t.ss = s.ss := by rfl

/-- The invariants of every block, and the ranges of the ports' settings. -/
structure EngineInv (s : State) : Prop where
  timing : TimingInv s.rtg
  inputs : InputsInv s
  setup : SetupInv s
  transition : TransitionInv s
  tally : TallyInv s.tu
  cues : CueInv s.rtg.counter s.cq
  ranges : ∀ p, PortRanges (s.ports.get p)

theorem Inv.engine {s : State} (h : Inv s) : EngineInv s :=
  ⟨h.timing, h.inputs, h.setup, h.transition, h.tally, h.cues,
    fun p => ⟨(h.ports p).flags, (h.ports p).mask, (h.ports p).quiet⟩⟩

theorem InputsInv.congr {s t : State} (h : InputsInv s) (bi : t.bi = s.bi) (xl : t.xl = s.xl)
    (cmp : t.cmp = s.cmp) : InputsInv t := by
  obtain ⟨inputs, thresholds, sent, burst, burstExternal, clip⟩ := h
  constructor <;> simpa only [bi, xl, cmp]

theorem SetupInv.congr {s t : State} (h : SetupInv s) (rtg : t.rtg.raster = s.rtg.raster)
    (next : t.mes.next = s.mes.next) (live : t.mes.live = s.mes.live) (cut : t.tc.sceneCut = s.tc.sceneCut)
    (ss : t.ss = s.ss) : SetupInv t := by
  obtain ⟨hNext, hLive, sceneCut, slots, protect⟩ := h
  constructor <;> simpa only [rtg, next, live, cut, ss, State.slot]

theorem TransitionInv.congr {s t : State} (h : TransitionInv s) (tc : t.tc = s.tc) (lu : t.lu = s.lu) :
    TransitionInv t := by
  obtain ⟨idle, idlePos, pos, flight, noMain, deferrals, keyCuts, sceneCut, autoHold, noHold, quiet, levers,
    waiting⟩ := h
  constructor <;> simpa only [tc, lu]

theorem EngineInv.congr {s t : State} (h : EngineInv s) (same : SameBlocks s t)
    (ranges : ∀ p, PortRanges (t.ports.get p)) : EngineInv t where
  timing := by rw [same.rtg]; exact h.timing
  inputs := h.inputs.congr same.bi same.xl same.cmp
  setup := h.setup.congr (by rw [same.rtg]) (by rw [same.mes]) (by rw [same.mes]) (by rw [same.tc]) same.ss
  transition := h.transition.congr same.tc same.lu
  tally := by rw [same.tu]; exact h.tally
  cues := by rw [same.rtg, same.cq]; exact h.cues
  ranges := ranges

/-! ### Power-on -/

theorem defaultKeyer_inv (r : Raster) : KeyerInv (activeWidth r) (activeHeight r) (defaultKeyer r) :=
  ⟨show 64 ≤ 1023 by decide, show 300 ≤ 4095 by decide, le_refl 4096, Nat.zero_le _, le_refl _, Nat.zero_le _,
    le_refl _⟩

theorem defaultSetup_inv (r : Raster) : CopyInv r (defaultSetup r) where
  keyers k := by simpa [defaultSetup] using defaultKeyer_inv r
  order := show (⟨.k1, .k2, .k3, .k4⟩ : KeyOrder).toList.Nodup by decide
  selection := show bkgdOnly.nonEmpty = true by decide
  rate := show 30 ≤ 999 by decide
  wipe := ⟨Nat.zero_le _, show 1 ≤ 1 ∧ 1 ≤ 16 by decide, show 1 ≤ 1 ∧ 1 ≤ 16 by decide,
    show 2048 ≤ 4095 by decide, show 2048 ≤ 4095 by decide⟩
  limiter := ⟨show 64 ≤ 940 ∧ 940 ≤ 1023 by decide, show 64 ≤ 960 ∧ 960 ≤ 1023 by decide⟩

theorem powerOnRtg_inv (r : Raster) : TimingInv (powerOnRtg r) where
  trim := show -200 ≤ (0 : Int) ∧ (0 : Int) ≤ 200 by decide
  phase := show -32767 ≤ (0 : Int) ∧ (0 : Int) ≤ 32767 by decide
  periods := Nat.zero_le 4
  free := by simp [powerOnRtg]
  holdover := by simp [powerOnRtg]
  missRange := Nat.zero_le 3
  inWindow := by simp [powerOnRtg]
  outCount := by simp [powerOnRtg]
  pendingNew := nofun

theorem powerOn_inputsInv (r : Raster) (select : PerPort Bool) (low : Bool) :
    InputsInv (State.powerOn r select low) where
  inputs i := by
    have off : InputInv powerOnInput := ⟨Nat.zero_le 2, nofun, by decide⟩
    simpa [State.powerOn] using off
  thresholds := show 1 ≤ 1 ∧ 1 ≤ 6 ∧ 6 ≤ 7 by decide
  sent i src e := by simp [State.powerOn] at e
  burst := .nil
  burstExternal := nofun
  clip := ⟨Nat.zero_le _, Nat.zero_le _⟩

theorem powerOn_transitionInv (r : Raster) (select : PerPort Bool) (low : Bool) :
    TransitionInv (State.powerOn r select low) := by
  have tc : (State.powerOn r select low).tc = powerOnTc := rfl
  have lu : (State.powerOn r select low).lu = ⟨none, 0, .const powerOnLever⟩ := rfl
  have off : LeverInv powerOnLever := ⟨Nat.zero_le _, by decide⟩
  constructor <;> simp [tc, lu, powerOnTc, off]
  simp [powerOnLever]

theorem powerOnTally_inv : TallyInv ⟨Vector.replicate 128 tallyOff, 0, .const ⟨[], false⟩⟩ where
  layers src := by simp [tallyOff, noLayers, LayerSet.nonEmpty, PerKeyer.const]
  lists p := by simp

theorem powerOnPort_ranges (selectLow : Bool) : PortRanges (powerOnPort selectLow) :=
  ⟨show (0 : Half).toNat < 1024 by decide, show allNotices.toNat < 1024 by decide,
    show 1 ≤ 50 ∧ 50 ≤ 255 by decide⟩

theorem powerOn_setupInv (r : Raster) (select : PerPort Bool) (low : Bool) :
    SetupInv (State.powerOn r select low) where
  next := defaultSetup_inv r
  live := defaultSetup_inv r
  sceneCut c e := by simp [State.powerOn, powerOnTc] at e
  slots n sc e := by simp [State.slot, State.powerOn] at e
  protect := by simp [State.powerOn]

theorem powerOnCues_inv (counter : Word) : CueInv counter ⟨[], 1, .const none⟩ := by
  constructor <;> simp

/-- Every block's power-on value meets its invariant, on every raster (reset tables of chapters 1 to 11). -/
theorem powerOn_engineInv (r : Raster) (select : PerPort Bool) (low : Bool) :
    EngineInv (State.powerOn r select low) where
  timing := powerOnRtg_inv r
  inputs := powerOn_inputsInv r select low
  setup := powerOn_setupInv r select low
  transition := powerOn_transitionInv r select low
  tally := powerOnTally_inv
  cues := powerOnCues_inv _
  ranges p := by simpa [State.powerOn] using powerOnPort_ranges (select.get p)

theorem resetAssertWork_engineInv (rsel : BitVec 2) (s : State) : EngineInv (resetAssertWork rsel s) :=
  (powerOn_engineInv (strapRaster rsel) (s.ports.map PortState.selectLow) true).congr {}
    (powerOn_engineInv (strapRaster rsel) (s.ports.map PortState.selectLow) true).ranges

/-! ### Every step -/

/-- A property of the blocks that no row of the engine ends. -/
structure KeptByRows (X : State → Prop) : Prop where
  ofInv : ∀ {s}, EngineInv s → X s
  congr : ∀ {s t}, SameBlocks s t → X s → X t
  dealt : ∀ {p s a}, Dealt p s a → EngineInv s → X a.state
  timed : ∀ {c f s}, TimedEvent c f → EngineInv s → X (f s)

theorem KeptByRows.row {X : State → Prop} (kept : KeptByRows X) {s t : State} {c : Instr}
    (h : RowEffect s c t) (inv : EngineInv s) : X t := by
  cases h with
  | nothing => exact kept.ofInv inv
  | port => exact kept.congr {} (kept.ofInv inv)
  | dealt c p free phase deal => exact kept.congr {} (kept.dealt deal (inv.congr {} inv.ranges))
  | timed c event free => exact kept.timed event inv
  | powerOn rsel => exact kept.ofInv (resetAssertWork_engineInv rsel s)
  | released => exact kept.congr {} (kept.ofInv inv)

theorem mapPort_waiting_ranges {s : State} (h : ∀ q, PortRanges (s.ports.get q)) (p : Port)
    (rest : List WaitingFrame) (q : Port) :
    PortRanges ((mapPort p (fun ps => { ps with waiting := rest }) s).ports.get q) := by
  by_cases e : q = p
  · subst e
    have := h q
    simpa [mapPort] using (⟨this.flags, this.mask, this.quiet⟩ : PortRanges { s.ports.get q with waiting := rest })
  · simpa [mapPort, e] using h q

theorem KeptByRows.grantNext {X : State → Prop} (kept : KeptByRows X) {s : State} (inv : EngineInv s) :
    X (grantNext s) := by
  rcases grantNext_cases s with ⟨-, e⟩ | ⟨p, f, rest, before, after, -, -, -, e⟩ <;> rw [e]
  · exact kept.ofInv inv
  · have dealt := kept.dealt (dealt_dealWaiting p f _)
      (inv.congr (t := grant p (mapPort p (fun ps => { ps with waiting := rest }) s)) {}
        (mapPort_waiting_ranges inv.ranges p rest))
    rcases grantWaiting_eq p f rest s with e | ⟨-, -, -, e⟩ <;> rw [e]
    · exact dealt
    · exact kept.congr {} dealt

/-- Everything a step can do: the row of the front command, the next grant of the intake, or nothing. -/
theorem step_cases {s t : State} (h : step s = .next t) :
    (∃ c rest, s.pending = c :: rest ∧ RowEffect (s.withPending rest) c t)
    ∨ (s.pending = [] ∧ s.resetLow = false ∧ t = grantNext s) ∨ t = s := by
  unfold step at h
  split at h
  · next empty =>
    cases h
    cases held : s.resetLow
    · exact .inr (.inl ⟨empty, rfl, by simp [unlessReset, held]⟩)
    · exact .inr (.inr (by simp [unlessReset, held]))
  · next c rest front => exact .inl ⟨c, rest, front, exec_rowEffect h⟩

/-- Every step keeps a property that no row ends. -/
theorem KeptByRows.step {X : State → Prop} (kept : KeptByRows X) {s t : State} (inv : Inv s)
    (h : step s = .next t) : X t := by
  rcases step_cases h with ⟨c, rest, -, row⟩ | ⟨-, -, rfl⟩ | rfl
  · exact kept.row row (inv.engine.congr {} inv.engine.ranges)
  · exact kept.grantNext inv.engine
  · exact kept.ofInv inv.engine

end Sys2Proof.Machine
end

section
/-!
SUPPORT. What the stages of a frame take (section 4.3) leave alone, said once for all of them: they move the
controller, the lever unit and the wipe direction, and raise DONE and LEVER_LOST. The scene cut, which alone
writes the setups, is said apart.
-/

namespace Sys2Proof.Machine

/-! ### Raised flags -/

/-- A port's state after some of the flags of a list have been raised to it (R171). -/
structure Raises (ns : List Notice) (ps qs : PortState) : Prop where
  fields : ∃ w, qs = { ps with flags := w }
  other : ∀ n, n ∉ ns → flagSet qs.flags n = flagSet ps.flags n
  stays : ∀ n, flagSet ps.flags n = true → flagSet qs.flags n = true
  range : ps.flags.toNat < 1024 → qs.flags.toNat < 1024

theorem Raises.refl (ns : List Notice) (ps : PortState) : Raises ns ps ps :=
  ⟨⟨_, rfl⟩, fun _ _ => rfl, fun _ => id, id⟩

theorem Raises.trans {ns : List Notice} {a b c : PortState} (h : Raises ns a b) (k : Raises ns b c) :
    Raises ns a c where
  fields := by
    obtain ⟨_, eh⟩ := h.fields
    obtain ⟨w, ek⟩ := k.fields
    exact ⟨w, by rw [ek, eh]⟩
  other n hn := (k.other n hn).trans (h.other n hn)
  stays n := k.stays n ∘ h.stays n
  range := k.range ∘ h.range

theorem Raises.mono {ns ms : List Notice} {a b : PortState} (h : Raises ns a b) (sub : ns ⊆ ms) :
    Raises ms a b :=
  ⟨h.fields, fun n hn => h.other n fun hm => hn (sub hm), h.stays, h.range⟩

theorem raises_setFlag {ns : List Notice} {n : Notice} (h : n ∈ ns) (ps : PortState) :
    Raises ns ps { ps with flags := setFlag ps.flags n } where
  fields := ⟨_, rfl⟩
  other m hm := by
    have : m ≠ n := fun e => hm (e ▸ h)
    simp [flagSet_setFlag, this]
  stays m hm := by simp [flagSet_setFlag, hm]
  range h := setFlag_lt h n

theorem raises_raisedWhen {ns : List Notice} {n : Notice} (h : n ∈ ns) (c : Bool) (ps : PortState) :
    Raises ns ps (raisedWhen c n ps) := by
  unfold raisedWhen
  split
  · exact raises_setFlag h ps
  · exact .refl ns ps

theorem Raises.portKeeps {ns : List Notice} {ps qs : PortState} (h : Raises ns ps qs) : PortKeeps ps qs := by
  obtain ⟨⟨w, rfl⟩, -, -, range⟩ := h
  exact ⟨{}, fun r => ⟨range r.flags, r.mask, r.quiet⟩⟩

/-- The notice words of every port after some flags of a list have been raised. -/
def RaisesAll (ns : List Notice) (s t : State) : Prop := ∀ q, Raises ns (s.ports.get q) (t.ports.get q)

theorem raiseTo_raises {ns : List Notice} {n : Notice} (h : n ∈ ns) (p : Port) (s : State) :
    RaisesAll ns s (raiseTo n p s) := by
  intro q
  by_cases e : q = p
  · subst e
    simpa [raiseTo] using raises_setFlag h _
  · simpa [raiseTo, e] using Raises.refl ns _

theorem raiseAllWhen_raises {ns : List Notice} {n : Notice} (h : n ∈ ns) (c : Bool) (s : State) :
    RaisesAll ns s (raiseAllWhen c n s) := fun q => by
  rw [raiseAllWhen_get]
  exact raises_raisedWhen h c _

theorem raiseAll_raises {ns : List Notice} {n : Notice} (h : n ∈ ns) (s : State) :
    RaisesAll ns s (raiseAll n s) := raiseAllWhen_raises h true s

theorem RaisesAll.refl (ns : List Notice) (s : State) : RaisesAll ns s s := fun _ => .refl ns _

theorem RaisesAll.trans {ns : List Notice} {s t u : State} (h : RaisesAll ns s t) (k : RaisesAll ns t u) :
    RaisesAll ns s u := fun q => (h q).trans (k q)

/-! ### The published tally -/

/-- The tally unit once the table derived from the state is published (R133, R134, R135). -/
def publishedTally (s : State) : Tu :=
  let changed := changedSources s.tu.table (tallyTable s)
  if changed.isEmpty then { s.tu with table := tallyTable s }
  else {
    table := tallyTable s
    generation := s.tu.generation + 1
    changes := s.tu.changes.map fun c => changed.foldl noteChange c }

theorem publishTally_eq (s : State) :
    publishTally s = raiseAllWhen (!(changedSources s.tu.table (tallyTable s)).isEmpty) .tally
      { s with tu := publishedTally s } := by
  cases empty : (changedSources s.tu.table (tallyTable s)).isEmpty <;>
    simp [publishTally, publishedTally, raiseAllWhen, empty]

/-! ### The stages -/

/-- The notices that a frame take raises (R76, R89, R90, R93). -/
def takeNotices : List Notice := [.done, .leverLost]

/-- What a stage of the frame take leaves alone. -/
structure StageKeeps (s t : State) : Prop where
  pending : t.pending = s.pending := by rfl
  resetLow : t.resetLow = s.resetLow := by rfl
  rtg : t.rtg = s.rtg := by rfl
  bi : t.bi = s.bi := by rfl
  xl : t.xl = s.xl := by rfl
  mes : t.mes = s.mes := by rfl
  reload : t.wg.reload = s.wg.reload := by rfl
  cmp : t.cmp = s.cmp := by rfl
  tu : t.tu = s.tu := by rfl
  cq : t.cq = s.cq := by rfl
  ss : t.ss = s.ss := by rfl
  sceneCut : t.tc.sceneCut = s.tc.sceneCut := by rfl
  ports : RaisesAll takeNotices s t := by exact .refl takeNotices _
  lastGranted : t.lastGranted = s.lastGranted := by rfl

theorem StageKeeps.refl (s : State) : StageKeeps s s := {}

theorem StageKeeps.trans {s t u : State} (h : StageKeeps s t) (k : StageKeeps t u) : StageKeeps s u :=
  ⟨k.pending.trans h.pending, k.resetLow.trans h.resetLow, k.rtg.trans h.rtg, k.bi.trans h.bi,
    k.xl.trans h.xl, k.mes.trans h.mes, k.reload.trans h.reload, k.cmp.trans h.cmp, k.tu.trans h.tu,
    k.cq.trans h.cq, k.ss.trans h.ss, k.sceneCut.trans h.sceneCut, h.ports.trans k.ports,
    k.lastGranted.trans h.lastGranted⟩

theorem mapTc_stageKeeps (f : Tc → Tc) (s : State) (cut : (f s.tc).sceneCut = s.tc.sceneCut := by rfl) :
    StageKeeps s (mapTc f s) := { sceneCut := cut }

theorem releaseHold_stageKeeps (s : State) : StageKeeps s (releaseHold s) := {}

theorem raiseTo_stageKeeps {n : Notice} (h : n ∈ takeNotices) (p : Port) (s : State) :
    StageKeeps s (raiseTo n p s) := { ports := raiseTo_raises h p s }

theorem releaseHoldUnless_stageKeeps (exempt : Port → Bool) (s : State) :
    StageKeeps s (releaseHoldUnless exempt s) := by
  rcases releaseHoldUnless_cases exempt s with ⟨-, e⟩ | ⟨h, -, e⟩ <;> rw [e]
  · exact .refl s
  · refine .trans ?_ (releaseHold_stageKeeps _)
    split
    · exact .refl s
    · exact raiseTo_stageKeeps (by simp [takeNotices]) h s

theorem quietStep_stageKeeps (s : State) : StageKeeps s (quietStep s) := by
  rcases quietStep_cases s with ⟨-, e⟩ | ⟨h, -, ⟨-, e⟩ | ⟨-, e⟩⟩ <;> rw [e]
  · exact .refl s
  · exact {}
  · exact (raiseTo_stageKeeps (by simp [takeNotices]) h s).trans (releaseHold_stageKeeps _)

theorem leaveManual_stageKeeps (s : State) : StageKeeps s (leaveManual s) := by
  rw [leaveManual_eq]
  exact { ports := fun q => by simpa using raises_raisedWhen (by simp [takeNotices]) _ _ }

theorem toIdle_stageKeeps (s : State) : StageKeeps s (toIdle s) :=
  (leaveManual_stageKeeps s).trans (mapTc_stageKeeps _ _)

theorem applyEngineReset_stageKeeps (s : State) : StageKeeps s (applyEngineReset s) := by
  unfold applyEngineReset
  split
  · exact (toIdle_stageKeeps s).trans (mapTc_stageKeeps _ _)
  · exact .refl s

theorem behindSceneCut_stageKeeps {f : State → State} {s : State} (h : StageKeeps s (f s)) :
    StageKeeps s (behindSceneCut s f) := by
  unfold behindSceneCut
  split
  · exact .refl s
  · exact h

theorem keyCutStage_stageKeeps (k : Keyer) (s : State) : StageKeeps s (keyCutStage k s) := by
  unfold keyCutStage
  split
  · exact .refl s
  · split_ifs
    · exact .refl s
    · exact mapTc_stageKeeps _ s
    · exact mapTc_stageKeeps _ s

theorem keyCutStages_stageKeeps (s : State) : StageKeeps s (keyCutStages s) :=
  behindSceneCut_stageKeeps
    ((keyCutStage_stageKeeps .k1 s).trans ((keyCutStage_stageKeeps .k2 _).trans
      ((keyCutStage_stageKeeps .k3 _).trans (keyCutStage_stageKeeps .k4 _))))

theorem completed_stageKeeps (s : State) (sel : LayerSet) (type : Option TransType) (byLever : Bool) :
    StageKeeps s (s.completed sel type byLever) where
  ports q := by
    simp only [State.completed, PerPort.get_build]
    exact (raises_raisedWhen (by simp [takeNotices]) _ _).trans (raises_raisedWhen (by simp [takeNotices]) _ _)

theorem finish_stageKeeps {s : State} {w : StageWork} (h : StageKeeps s w.state) : StageKeeps s (finish w) := by
  unfold finish
  split
  · rw [complete_eq]
    exact h.trans (completed_stageKeeps _ _ _ _)
  · exact h

theorem mainPerformed_stageKeeps (s : State) : StageKeeps s s.mainPerformed where
  ports q := by
    simp only [State.mainPerformed, PerPort.get_build]
    exact raises_raisedWhen (by simp [takeNotices]) _ _

theorem clearMain_stageKeeps (s : State) : StageKeeps s (clearMain (releaseForMain s)) :=
  clearMain_releaseForMain s ▸ mainPerformed_stageKeeps s

theorem cutStage_stageKeeps (s : State) : StageKeeps s (cutStage s).state := by
  unfold cutStage
  split
  · split
    · exact {}
    · exact clearMain_stageKeeps s
  · exact clearMain_stageKeeps s
  · exact .refl s

theorem autoStage_stageKeeps (s : State) : StageKeeps s (autoStage s).state := by
  unfold autoStage
  split
  · split_ifs
    · exact {}
    · exact clearMain_stageKeeps s
    · exact (clearMain_stageKeeps s).trans {}
  · exact .refl s

theorem takeoverStage_stageKeeps (s : State) : StageKeeps s (takeoverStage s).state := by
  unfold takeoverStage
  split
  · dsimp only
    split
    · exact clearMain_stageKeeps s
    · exact (clearMain_stageKeeps s).trans ((leaveManual_stageKeeps _).trans {})
  · exact .refl s

theorem mainStage_stageKeeps (s : State) : StageKeeps s (mainStage s).state := by
  unfold mainStage
  split
  · exact .refl s
  · split
    · exact .refl s
    · exact cutStage_stageKeeps s
    · exact takeoverStage_stageKeeps s
    · exact autoStage_stageKeeps s

theorem autoAdvance_stageKeeps (s : State) : StageKeeps s (autoAdvance s).state := by
  unfold autoAdvance
  split
  · exact .refl s
  · dsimp only
    split
    · exact {}
    · exact .refl s

theorem leverAdvance_stageKeeps (s : State) : StageKeeps s (leverAdvance s).state := by
  unfold leverAdvance
  split
  · exact .refl s
  · dsimp only
    split_ifs
    · exact (toIdle_stageKeeps s).trans (releaseHold_stageKeeps _)
    · exact .refl s
    · exact {}

theorem manualStage_stageKeeps (s : State) : StageKeeps s (manualStage s).state := by
  unfold manualStage startManual
  split
  · dsimp only
    split_ifs
    · exact {}
    · exact .refl s
    · exact {}
    · exact {}
    · exact {}
  · exact .refl s

theorem advanceStage_stageKeeps (s : State) : StageKeeps s (advanceStage s).state := by
  unfold advanceStage
  split
  · exact autoAdvance_stageKeeps s
  · exact leverAdvance_stageKeeps s
  · exact manualStage_stageKeeps s

theorem laterStages_stageKeeps (s : State) : StageKeeps s (laterStages s) := by
  unfold laterStages
  dsimp only
  split
  · exact (mainStage_stageKeeps s).trans (finish_stageKeeps (advanceStage_stageKeeps _))
  · exact finish_stageKeeps (mainStage_stageKeeps s)

/-! ### The scene cut -/

/-- A scene cut that waits one more frame (R67). -/
def SceneCut.deferred (c : SceneCut) : SceneCut := { c with deferrals := c.deferrals + 1 }

/-- Everything stage 1 does: nothing with no scene cut, and otherwise it waits or is applied (R67). -/
theorem sceneCutStage_cases (s : State) :
    (s.tc.sceneCut = none ∧ sceneCutStage s = s)
    ∨ ∃ c, s.tc.sceneCut = some c
      ∧ ((c.deferrals < 4 ∧ anyInFlight s (sceneCutInputs c) = true
          ∧ sceneCutStage s = s.withTc { s.tc with sceneCut := some c.deferred })
        ∨ ((anyInFlight s (sceneCutInputs c) = false ∨ 4 ≤ c.deferrals)
          ∧ sceneCutStage s = applySceneCut c s)) := by
  unfold sceneCutStage
  cases hc : s.tc.sceneCut with
  | none => exact .inl ⟨rfl, rfl⟩
  | some c =>
    refine .inr ⟨c, rfl, ?_⟩
    dsimp only
    split
    · next waits =>
      obtain ⟨flight, few⟩ := Bool.and_eq_true_iff.1 waits
      exact .inl ⟨of_decide_eq_true few, flight, rfl⟩
    · next goes =>
      refine .inr ⟨?_, rfl⟩
      rw [Bool.and_eq_true_iff, not_and_or, decide_eq_true_iff, not_lt, Bool.not_eq_true] at goes
      exact goes

/-- The notices that a frame take raises reach the ports alone, in a scene cut none. -/
theorem sceneCutStage_ports (s : State) : (sceneCutStage s).ports = s.ports := by
  rcases sceneCutStage_cases s with ⟨-, e⟩ | ⟨c, -, ⟨-, -, e⟩ | ⟨-, e⟩⟩ <;> rw [e] <;> rfl

theorem sceneCutStage_resetLow (s : State) : (sceneCutStage s).resetLow = s.resetLow := by
  rcases sceneCutStage_cases s with ⟨-, e⟩ | ⟨c, -, ⟨-, -, e⟩ | ⟨-, e⟩⟩ <;> rw [e] <;> rfl

theorem frameTake_raises (s : State) : RaisesAll takeNotices s (frameTake s) := by
  have reset := (applyEngineReset_stageKeeps s).ports
  have cut : RaisesAll takeNotices s (sceneCutStage (applyEngineReset s)) := fun q => by
    rw [sceneCutStage_ports]
    exact reset q
  exact cut.trans ((keyCutStages_stageKeeps _).trans (laterStages_stageKeeps _)).ports

/-! ### The events that are stages -/

/-- The rows that run stages of a frame take, or the quiet count before it. -/
def isStageEvent : Instr → Bool
  | .engineResetApply | .sceneCutApply | .keyCutApply _ | .cutPerform | .autoStart | .takeover | .manualStart
  | .completion | .quietLimitExpiry => true
  | _ => false

/-- A property that the stages keep is kept by every timed event when it is by those that are no stages. -/
theorem TimedEvent.keeps {X : State → Prop} (stage : ∀ {s t}, StageKeeps s t → X s → X t)
    (cut : ∀ {s}, X s → X (sceneCutStage s)) {c : Instr} {f : State → State} (event : TimedEvent c f) {s : State}
    (h : X s) (other : isStageEvent c = false → X (f s)) : X (f s) := by
  cases event with
  | engineResetApply => exact stage (applyEngineReset_stageKeeps s) h
  | sceneCutApply => exact cut h
  | keyCutApply k => exact stage (behindSceneCut_stageKeeps (keyCutStage_stageKeeps k s)) h
  | cutPerform => exact stage (behindSceneCut_stageKeeps (finish_stageKeeps (cutStage_stageKeeps s))) h
  | autoStart => exact stage (behindSceneCut_stageKeeps (finish_stageKeeps (autoStage_stageKeeps s))) h
  | takeover => exact stage (behindSceneCut_stageKeeps (finish_stageKeeps (takeoverStage_stageKeeps s))) h
  | manualStart => exact stage (finish_stageKeeps (manualStage_stageKeeps s)) h
  | completion => exact stage (finish_stageKeeps (.refl s)) h
  | quietLimitExpiry => exact stage (quietStep_stageKeeps s) h
  | _ => exact other rfl

theorem frameTake_keeps {X : State → Prop} (stage : ∀ {s t}, StageKeeps s t → X s → X t)
    (cut : ∀ {s}, X s → X (sceneCutStage s)) {s : State} (h : X s) : X (frameTake s) :=
  stage ((keyCutStages_stageKeeps _).trans (laterStages_stageKeeps _))
    (cut (stage (applyEngineReset_stageKeeps s) h))

end Sys2Proof.Machine
end

section
/-!
SUPPORT. The command ports through every step (chapter 11): a link event moves one port, an answer moves its own,
and everything else leaves the links and keeps the ranges.
-/

namespace Sys2Proof.Machine

/-! ### What no timed event does to a port -/

/-- The RESET pin and the links stay, and the ports' settings keep their ranges. -/
structure PortsKeep (s t : State) : Prop where
  resetLow : t.resetLow = s.resetLow := by rfl
  ports : ∀ q, PortKeeps (s.ports.get q) (t.ports.get q) := by exact fun _ => {}

theorem PortsKeep.refl (s : State) : PortsKeep s s := {}

theorem PortsKeep.trans {s t u : State} (h : PortsKeep s t) (k : PortsKeep t u) : PortsKeep s u :=
  ⟨k.resetLow.trans h.resetLow, fun q =>
    ⟨(h.ports q).link.trans (k.ports q).link, (k.ports q).ranges ∘ (h.ports q).ranges⟩⟩

theorem CommandKeeps.portsKeep {s t : State} (h : CommandKeeps s t) : PortsKeep s t := ⟨h.resetLow, h.ports⟩

theorem RaisesAll.portsKeep {ns : List Notice} {s t : State} (h : RaisesAll ns s t)
    (reset : t.resetLow = s.resetLow) : PortsKeep s t := ⟨reset, fun q => (h q).portKeeps⟩

theorem StageKeeps.portsKeep {s t : State} (h : StageKeeps s t) : PortsKeep s t :=
  h.ports.portsKeep h.resetLow

theorem raiseAllWhen_portsKeep (c : Bool) (n : Notice) (s : State) : PortsKeep s (raiseAllWhen c n s) :=
  (raiseAllWhen_commandKeeps c n s).portsKeep

theorem closeClipFrame_portsKeep (s : State) : PortsKeep s (closeClipFrame s) := by
  unfold closeClipFrame
  exact .trans {} (raiseAllWhen_portsKeep _ .clip _)

theorem timingSwitch_portsKeep (s : State) : PortsKeep s (timingSwitch s) :=
  .trans (t := { s with rtg := rtgSwitch s.rtg }) {} (raiseAllWhen_portsKeep _ .ref _)

theorem settleAll_portsKeep (directive : Bool) (s : State) : PortsKeep s (settleAll directive s) := by
  unfold settleAll
  split <;> exact {}

theorem issueAll_portsKeep (xready : Bool) (s : State) : PortsKeep s (issueAll xready s) := by
  unfold issueAll
  split <;> exact {}

theorem inputsSwitch_portsKeep (r : Rtg) (xready : Bool) (s : State) :
    PortsKeep s (inputsSwitch r xready s) :=
  .trans (t := goLiveAll s) {} ((settleAll_portsKeep _ _).trans
    (.trans (t := judgeAll r _) {} (issueAll_portsKeep xready _)))

theorem clampCropsWhen_portsKeep (changed : Bool) (s : State) : PortsKeep s (clampCropsWhen changed s) := by
  unfold clampCropsWhen
  split <;> exact {}

theorem reloadDirection_portsKeep (s : State) : PortsKeep s (reloadDirection s) := by
  unfold reloadDirection
  split <;> exact {}

theorem setupSwitch_portsKeep (changed : Bool) (s : State) : PortsKeep s (setupSwitch changed s) :=
  .trans (t := copyNextToLive s) {} ((reloadDirection_portsKeep _).trans (clampCropsWhen_portsKeep changed _))

theorem sceneCutStage_portsKeep (s : State) : PortsKeep s (sceneCutStage s) :=
  ⟨sceneCutStage_resetLow s, fun q => sceneCutStage_ports s ▸ {}⟩

theorem frameTake_portsKeep (s : State) : PortsKeep s (frameTake s) :=
  (applyEngineReset_stageKeeps s).portsKeep.trans ((sceneCutStage_portsKeep _).trans
    ((keyCutStages_stageKeeps _).trans (laterStages_stageKeeps _)).portsKeep)

theorem publishTally_portsKeep (s : State) : PortsKeep s (publishTally s) := by
  rw [publishTally_eq]
  exact .trans (t := { s with tu := publishedTally s }) {} (raiseAllWhen_portsKeep _ .tally _)

theorem releaseAnswer_commandKeeps (e : CueEntry) (s : State) : CommandKeeps s (releaseAnswer e s).state := by
  unfold releaseAnswer
  split
  · exact (dealCueCommand_same _ _ s).commandKeeps
  · exact .refl s

theorem recordFailure_commandKeeps (e : CueEntry) (o : CmdOutcome) (s : State) :
    CommandKeeps s (recordFailure e o s) :=
  .trans (t := { s with cq := { s.cq with failures := s.cq.failures.set e.owner (some ⟨e.tag, o⟩) } }) {}
    (raiseTo_commandKeeps .cueFail e.owner _)

theorem releaseEntry_commandKeeps (s : State) (e : CueEntry) : CommandKeeps s (releaseEntry s e) := by
  unfold releaseEntry
  dsimp only
  split
  · exact recordFailure_commandKeeps e _ s
  · exact releaseAnswer_commandKeeps e s

theorem foldl_commandKeeps {α : Type} {f : State → α → State} (h : ∀ s a, CommandKeeps s (f s a))
    (l : List α) (s : State) : CommandKeeps s (l.foldl f s) := by
  induction l generalizing s with
  | nil => exact .refl s
  | cons a l ih => exact (h s a).trans (ih _)

theorem setEntries_commandKeeps (es : List CueEntry) (s : State) : CommandKeeps s (setEntries es s) := {}

theorem releaseDue_commandKeeps (s : State) : CommandKeeps s (releaseDue s) :=
  (setEntries_commandKeeps _ s).trans (foldl_commandKeeps releaseEntry_commandKeeps _ _)

theorem releaseFirst_commandKeeps (s : State) : CommandKeeps s (releaseFirst s) := by
  unfold releaseFirst
  split
  · exact (setEntries_commandKeeps _ s).trans (releaseEntry_commandKeeps _ _)
  · exact .refl s

theorem switchPointWork_portsKeep (xready : Bool) (s : State) : PortsKeep s (switchPointWork xready s) :=
  ((closeClipFrame_portsKeep s).trans (timingSwitch_portsKeep _)).trans
    ((inputsSwitch_portsKeep s.rtg xready _).trans
      ((setupSwitch_portsKeep _ _).trans ((quietStep_stageKeeps _).portsKeep.trans
        ((frameTake_portsKeep _).trans ((raiseAllWhen_portsKeep _ .input _).trans
          ((publishTally_portsKeep _).trans (releaseDue_commandKeeps _).portsKeep))))))

theorem timingSetupWork_portsKeep (s : State) : PortsKeep s (timingSetupWork s) :=
  .trans (t := { s with rtg := applyTimingSetup s.rtg }) {} ((raiseAllWhen_portsKeep _ .ref _).trans
    ((settleAll_portsKeep _ _).trans (clampCropsWhen_portsKeep _ _)))

/-- No timed event moves a link. -/
theorem TimedEvent.portsKeep {c : Instr} {f : State → State} (h : TimedEvent c f) (s : State) :
    PortsKeep s (f s) := by
  refine h.keeps (fun stage kept => kept.trans stage.portsKeep)
    (fun kept => kept.trans (sceneCutStage_portsKeep _)) (.refl s) fun noStage => ?_
  cases h with
  | lineSync | frameMarker | inputMarker | goLive => exact {}
  | sample x y inputs =>
    dsimp only
    split <;> exact {}
  | switchPoint xready => exact switchPointWork_portsKeep xready s
  | timingSetupApply => exact timingSetupWork_portsKeep s
  | issue xready => exact issueAll_portsKeep xready s
  | cueRelease => exact (releaseFirst_commandKeeps s).portsKeep
  | _ => cases noStage

/-! ### The invariant of a port -/

theorem PortInv.ranges {low : Bool} {ps : PortState} (h : PortInv low ps) : PortRanges ps :=
  ⟨h.flags, h.mask, h.quiet⟩

theorem PortInv.keeps {low : Bool} {ps qs : PortState} (h : PortInv low ps) (k : PortKeeps ps qs) :
    PortInv low qs := by
  obtain ⟨⟨phase, selectLow, reply, response, waiting⟩, ranges⟩ := k
  obtain ⟨flags, mask, quiet⟩ := ranges h.ranges
  refine ⟨flags, mask, quiet, ?_, ?_, ?_, ?_, ?_⟩
  · simpa only [phase, reply] using h.reply
  · simpa only [phase, reply, waiting] using h.answered
  · simpa only [phase, response] using h.response
  · simpa only [phase, selectLow] using h.selected
  · simpa only [phase, waiting] using h.held

/-- A port that has just got an answer, on a line that its master still holds. -/
theorem awaiting_portInv {low : Bool} {ps : PortState} (ranges : PortRanges ps) (free : low = false)
    (selected : ps.selectLow = true) (o : CmdOutcome) (data : List Byte) : PortInv low (ps.awaiting o data) where
  flags := ranges.flags
  mask := ranges.mask
  quiet := ranges.quiet
  reply _ := rfl
  answered _ := nofun
  response := by simp [PortState.awaiting]
  selected _ := selected
  held e := by simp [free] at e

/-- A move of the link keeps the invariant of its port. -/
theorem PortMove.portInv {low : Bool} {ps qs : PortState} (move : PortMove low ps qs) (h : PortInv low ps) :
    PortInv low qs := by
  have closed (flags : Half) (range : flags.toNat < 1024) (free : low = false) :
      PortInv low { closePort ps with flags := flags } :=
    ⟨range, h.mask, h.quiet, by simp [closePort], by simp [closePort], by simp [closePort], by simp [closePort],
      by simp [free]⟩
  have receives (phase : ps.phase = .receiving) : ps.selectLow = true := h.selected (by simp [phase])
  cases move with
  | answered free phase o => exact awaiting_portInv h.ranges free (receives phase) o []
  | broken free phase =>
    exact awaiting_portInv (ps := { ps with streaming := false })
      ⟨h.flags, h.mask, h.quiet⟩ free (receives phase) .ok []
  | waits free phase f =>
    exact ⟨h.flags, h.mask, h.quiet, nofun, by simp, by simp, fun _ => receives phase,
      by simp [free]⟩
  | torn free => exact closed _ (setFlag_lt h.flags .torn) free
  | closes free => exact closed _ h.flags free
  | falls free phase =>
    have silent : ps.reply = none := by
      have := h.reply
      cases hr : ps.reply <;> simp_all
    have empty : ps.response = [] := by
      have := h.response
      simp_all
    exact ⟨h.flags, h.mask, h.quiet, by simp [silent], nofun, by simp [empty], by simp, by simp [free]⟩
  | lineMoves held low =>
    obtain ⟨phase, empty⟩ := h.held held
    exact ⟨h.flags, h.mask, h.quiet, h.reply, h.answered, h.response, by simp [phase],
      fun _ => ⟨phase, empty⟩⟩
  | forms free phase r some =>
    exact ⟨h.flags, h.mask, h.quiet, nofun, nofun, by simp [responseBytes], fun _ => h.selected (by simp [phase]),
      by simp [free]⟩
  | sent free phase =>
    have silent : ps.reply = none := by
      have := h.reply
      cases hr : ps.reply <;> simp_all
    exact ⟨h.flags, h.mask, h.quiet, by simp [silent], nofun, by simp, fun _ => h.selected (by simp [phase]),
      by simp [free]⟩

theorem setPort_portInv {s : State} (h : ∀ q, PortInv s.resetLow (s.ports.get q)) {p : Port} {ps : PortState}
    (hp : PortInv s.resetLow ps) (q : Port) : PortInv s.resetLow ((s.setPort p ps).ports.get q) := by
  by_cases e : q = p
  · subst e; simpa using hp
  · simpa [e] using h q

theorem powerOnPort_portInv (low selectLow : Bool) : PortInv low (powerOnPort selectLow) :=
  have ranges := powerOnPort_ranges selectLow
  ⟨ranges.flags, ranges.mask, ranges.quiet, nofun, nofun, by simp [powerOnPort], fun h => absurd rfl h,
    fun _ => ⟨rfl, rfl⟩⟩

/-- Every row keeps the invariant of every port. -/
theorem RowEffect.portInv {s t : State} {c : Instr} (h : RowEffect s c t)
    (inv : ∀ q, PortInv s.resetLow (s.ports.get q)) (q : Port) : PortInv t.resetLow (t.ports.get q) := by
  cases h with
  | nothing => exact inv q
  | port c p move => exact setPort_portInv inv (move.portInv (inv p)) q
  | @dealt c p a free phase deal between =>
    have keeps := deal.commandKeeps
    have dealt : ∀ q, PortInv a.state.resetLow (a.state.ports.get q) := fun q =>
      keeps.resetLow ▸ (inv q).keeps (keeps.ports q)
    have selected : (a.state.ports.get p).selectLow = true :=
      (dealt p).selected (by simp [(keeps.ports p).link.phase, phase])
    exact setPort_portInv dealt (awaiting_portInv (dealt p).ranges (keeps.resetLow.trans free) selected _ _) q
  | timed c event free =>
    have keeps := event.portsKeep s
    exact keeps.resetLow ▸ (inv q).keeps (keeps.ports q)
  | powerOn rsel =>
    simpa [resetAssertWork, State.powerOn] using powerOnPort_portInv true (s.ports.get q).selectLow
  | released =>
    exact ⟨(inv q).flags, (inv q).mask, (inv q).quiet, (inv q).reply, (inv q).answered, (inv q).response,
      (inv q).selected, nofun⟩

/-- The port whose oldest command is granted, unless that leaves a transaction with nothing to wait for. -/
theorem PortInv.granted {low : Bool} {ps : PortState} (h : PortInv low ps) (free : low = false)
    {rest : List WaitingFrame} (waits : ps.phase = .awaiting → ps.reply = none → rest ≠ []) :
    PortInv low { ps with waiting := rest } :=
  ⟨h.flags, h.mask, h.quiet, h.reply, waits, h.response, h.selected, by simp [free]⟩

theorem awaitsAnswer_iff (ps : PortState) : awaitsAnswer ps = true ↔ ps.phase = .awaiting ∧ ps.reply = none := by
  simp [awaitsAnswer]

theorem grantWaiting_portInv {s : State} (free : s.resetLow = false)
    (inv : ∀ q, PortInv s.resetLow (s.ports.get q)) (p : Port) (f : WaitingFrame) (rest : List WaitingFrame)
    (q : Port) : PortInv (grantWaiting p f rest s).resetLow ((grantWaiting p f rest s).ports.get q) := by
  have keeps := (dealt_dealWaiting p f (grant p (mapPort p (fun ps => { ps with waiting := rest }) s))).commandKeeps
  unfold grantWaiting
  generalize dealWaiting p f (grant p (mapPort p (fun ps => { ps with waiting := rest }) s)) = a at keeps ⊢
  have own : PortKeeps { s.ports.get p with waiting := rest } (a.state.ports.get p) := by
    simpa [mapPort] using keeps.ports p
  have reset : a.state.resetLow = s.resetLow := keeps.resetLow
  have others (e : q ≠ p) : PortInv a.state.resetLow (a.state.ports.get q) :=
    reset ▸ (inv q).keeps (by simpa [mapPort, e] using keeps.ports q)
  by_cases answers : rest = [] ∧ (s.ports.get p).phase = .awaiting ∧ (s.ports.get p).reply = none
  · obtain ⟨none_left, phase, silent⟩ := answers
    have selected : (a.state.ports.get p).selectLow = true :=
      own.link.selectLow.trans ((inv p).selected (by simp [phase]))
    have answered := awaiting_portInv (own.ranges ⟨(inv p).flags, (inv p).mask, (inv p).quiet⟩)
      (reset.trans free) selected a.outcome a.data
    rw [if_pos (by simp [none_left, awaitsAnswer_iff, phase, silent])]
    by_cases e : q = p
    · subst e
      simpa [reply, PortState.awaiting] using answered
    · simpa [reply, e] using others e
  · rw [if_neg (by simpa [awaitsAnswer_iff] using answers)]
    by_cases e : q = p
    · subst e
      exact reset ▸ ((inv q).granted free fun phase silent left => answers ⟨left, phase, silent⟩).keeps own
    · exact others e

/-- The next grant keeps the invariant of every port: a transaction that awaits the last command waiting at its
port gets the answer. -/
theorem grantNext_portInv {s : State} (free : s.resetLow = false)
    (inv : ∀ q, PortInv s.resetLow (s.ports.get q)) (q : Port) :
    PortInv (grantNext s).resetLow ((grantNext s).ports.get q) := by
  rcases grantNext_cases s with ⟨-, e⟩ | ⟨p, f, rest, -, -, -, -, -, e⟩ <;> rw [e]
  · exact inv q
  · exact grantWaiting_portInv free inv p f rest q

/-- Settles O59: each row and each grant keeps the invariant of every port. -/
theorem stepKeepsPorts : Obligations.StepKeepsPorts := by
  intro s t inv h
  rcases step_cases h with ⟨c, rest, -, row⟩ | ⟨-, free, rfl⟩ | rfl
  · exact row.portInv inv.ports
  · exact grantNext_portInv free inv.ports
  · exact inv.ports

/-- Settles O54: power-on on the strapped raster meets the invariants of the blocks and of the ports. -/
theorem resetMeetsEveryInvariant : Obligations.ResetMeetsEveryInvariant := by
  have engine := powerOn_engineInv Config.resetStrap (.const false) false
  exact ⟨engine.timing, engine.inputs, engine.setup, engine.transition, engine.tally, engine.cues, fun p => by
    simpa [State.reset, State.powerOn] using powerOnPort_portInv false false⟩

end Sys2Proof.Machine
end

section
/-!
SUPPORT. The timing generator through every step (chapter 1). `TimingCore` is the invariant without the two
clauses that tie the state to the enable in force and to the pending setup: those hold again once the enable has
acted (R7) and the pending setup is gone (R15).
-/

namespace Sys2Proof.Machine

/-! ### The evaluation of the reference -/

/-- The timing generator's ranges, and the fit of its counts to its state. -/
structure TimingCore (r : Rtg) : Prop where
  trim : -200 ≤ r.trim ∧ r.trim ≤ 200
  phase : -32767 ≤ r.phaseErr ∧ r.phaseErr ≤ 32767
  periods : r.linePeriods.length ≤ 4
  holdover : r.lock = .holdover ↔ r.miss = 3
  missRange : r.miss ≤ 3
  inWindow : r.inWindow < 4 ∧ (r.inWindow ≠ 0 → r.lock = .seeking)
  outCount : r.outCount < 2 ∧ (r.outCount ≠ 0 → r.lock = .locked)

theorem TimingInv.core {r : Rtg} (h : TimingInv r) : TimingCore r :=
  ⟨h.trim, h.phase, h.periods, h.holdover, h.missRange, h.inWindow, h.outCount⟩

theorem TimingCore.inv {r : Rtg} (h : TimingCore r) (free : r.lock = .free ↔ r.enable = false)
    (pending : r.pendingSetup ≠ some ⟨r.raster, r.enable⟩) : TimingInv r :=
  ⟨h.trim, h.phase, h.periods, free, h.holdover, h.missRange, h.inWindow, h.outCount, pending⟩

theorem saturatePhase_range (e : Int) : -32767 ≤ saturatePhase e ∧ saturatePhase e ≤ 32767 := by
  unfold saturatePhase
  omega

theorem stepTrim_core (e : Int) {r : Rtg} (h : TimingCore r) : TimingCore (stepTrim e r) := by
  have := h.trim
  have stepped : ∀ (trim : Int) (limit : Bool), -200 ≤ trim ∧ trim ≤ 200 →
      TimingCore { r with trim := trim, trimLimit := limit } := fun _ _ range =>
    ⟨range, h.phase, h.periods, h.holdover, h.missRange, h.inWindow, h.outCount⟩
  unfold stepTrim
  split_ifs <;> exact stepped _ _ (by omega)

theorem stepTrim_fields (e : Int) (r : Rtg) : (stepTrim e r).lock = r.lock
    ∧ (stepTrim e r).enable = r.enable ∧ (stepTrim e r).pendingSetup = r.pendingSetup
    ∧ (stepTrim e r).raster = r.raster := by
  unfold stepTrim
  split_ifs <;> exact ⟨rfl, rfl, rfl, rfl⟩

theorem clearCounts_core {r : Rtg} (h : TimingCore r) (unheld : r.lock ≠ .holdover) :
    TimingCore (clearCounts r) :=
  ⟨h.trim, h.phase, h.periods, iff_of_false unheld nofun, by simp [clearCounts],
    by simp [clearCounts], by simp [clearCounts]⟩

theorem evaluateInvalid_core {r : Rtg} (h : TimingCore r) : TimingCore (evaluateInvalid r) where
  trim := h.trim
  phase := h.phase
  periods := h.periods
  holdover := by
    have := h.missRange
    simp only [evaluateInvalid]
    split
    · next full => exact iff_of_true rfl full
    · next few =>
      refine iff_of_false (fun e => ?_) few
      have := h.holdover.1 e
      omega
  missRange := by simp only [evaluateInvalid]; omega
  inWindow := by simp [evaluateInvalid]
  outCount := by simp [evaluateInvalid]

theorem evaluateSeeking_core (e : Int) {r : Rtg} (h : TimingCore r) (seeking : r.lock = .seeking)
    (miss : r.miss = 0) : TimingCore (evaluateSeeking e r) := by
  have := h.outCount
  unfold evaluateSeeking
  split_ifs <;>
    exact ⟨h.trim, h.phase, h.periods, by simp [seeking, miss], by simp [miss], by simp [*],
      by simp_all⟩

theorem evaluateLocked_core (e : Int) {r : Rtg} (h : TimingCore r) (locked : r.lock = .locked)
    (miss : r.miss = 0) : TimingCore (evaluateLocked e r) := by
  have := h.inWindow
  unfold evaluateLocked
  split_ifs <;>
    exact ⟨h.trim, h.phase, h.periods, by simp [locked, miss], by simp [miss], by simp_all,
      by simp [*]⟩

theorem evaluateSeeking_fields (e : Int) (r : Rtg) (h : r.lock = .seeking) :
    (evaluateSeeking e r).lock ≠ .free ∧ (evaluateSeeking e r).enable = r.enable
    ∧ (evaluateSeeking e r).pendingSetup = r.pendingSetup ∧ (evaluateSeeking e r).raster = r.raster := by
  unfold evaluateSeeking
  split_ifs <;> simp [h]

theorem evaluateLocked_fields (e : Int) (r : Rtg) (h : r.lock = .locked) :
    (evaluateLocked e r).lock ≠ .free ∧ (evaluateLocked e r).enable = r.enable
    ∧ (evaluateLocked e r).pendingSetup = r.pendingSetup ∧ (evaluateLocked e r).raster = r.raster := by
  unfold evaluateLocked
  split_ifs <;> simp [h]

theorem evaluateValid_core (e : Int) {r : Rtg} (h : TimingCore r) : TimingCore (evaluateValid e r) := by
  have := h.inWindow
  have := h.outCount
  unfold evaluateValid
  split
  · next locked =>
    refine stepTrim_core e (evaluateLocked_core e ?_ locked rfl)
    exact ⟨h.trim, h.phase, h.periods, by simp [locked], by simp, h.inWindow, h.outCount⟩
  all_goals
    next lock =>
    refine stepTrim_core e (evaluateSeeking_core e ?_ rfl rfl)
    exact ⟨h.trim, h.phase, h.periods, by simp, by simp, by simp_all, by simp_all⟩

/-- A VALID evaluation leaves a state other than FREE, and the setup as it was. -/
theorem evaluateValid_fields (e : Int) (r : Rtg) : (evaluateValid e r).lock ≠ .free
    ∧ (evaluateValid e r).enable = r.enable ∧ (evaluateValid e r).pendingSetup = r.pendingSetup
    ∧ (evaluateValid e r).raster = r.raster := by
  unfold evaluateValid
  split
  · next locked => simpa only [stepTrim_fields] using evaluateLocked_fields e { r with miss := 0 } locked
  all_goals
    simpa only [stepTrim_fields] using evaluateSeeking_fields e { r with miss := 0, lock := .seeking } rfl

theorem evaluateInvalid_fields {r : Rtg} (h : r.lock ≠ .free) : (evaluateInvalid r).lock ≠ .free
    ∧ (evaluateInvalid r).enable = r.enable ∧ (evaluateInvalid r).pendingSetup = r.pendingSetup
    ∧ (evaluateInvalid r).raster = r.raster := by
  refine ⟨?_, rfl, rfl, rfl⟩
  simp only [evaluateInvalid]
  split
  · nofun
  · exact h

theorem evaluateOn_core {r : Rtg} (h : TimingCore r) : TimingCore (evaluateOn r) := by
  unfold evaluateOn
  split
  · exact evaluateValid_core _ h
  · exact evaluateInvalid_core h
  · exact evaluateInvalid_core h

theorem evaluateOn_fields {r : Rtg} (h : r.lock ≠ .free) : (evaluateOn r).lock ≠ .free
    ∧ (evaluateOn r).enable = r.enable ∧ (evaluateOn r).pendingSetup = r.pendingSetup
    ∧ (evaluateOn r).raster = r.raster := by
  unfold evaluateOn
  split
  · exact evaluateValid_fields _ r
  · exact evaluateInvalid_fields h
  · exact evaluateInvalid_fields h

/-- The enable in force acts: the state is FREE exactly when it is off (R7). -/
theorem applyEnable_core {r : Rtg} (h : TimingCore r) : TimingCore (applyEnable r) := by
  have := h.holdover
  have := h.inWindow
  have := h.outCount
  unfold applyEnable
  split_ifs with on free
  · exact ⟨h.trim, h.phase, h.periods, by simp_all, h.missRange, by simp_all, by simp_all⟩
  · exact h
  · exact ⟨h.trim, h.phase, h.periods, by simp [clearCounts], by simp [clearCounts], by simp [clearCounts],
      by simp [clearCounts]⟩

theorem applyEnable_fields (r : Rtg) : ((applyEnable r).lock = .free ↔ r.enable = false)
    ∧ (applyEnable r).enable = r.enable ∧ (applyEnable r).pendingSetup = r.pendingSetup
    ∧ (applyEnable r).raster = r.raster := by
  unfold applyEnable
  split_ifs with on free <;> simp_all [clearCounts]

theorem measureReference_core {r : Rtg} (h : TimingCore r) : TimingCore (measureReference r) := by
  unfold measureReference
  dsimp only
  split
  · exact ⟨h.trim, saturatePhase_range _, h.periods, h.holdover, h.missRange, h.inWindow, h.outCount⟩
  · exact ⟨h.trim, h.phase, h.periods, h.holdover, h.missRange, h.inWindow, h.outCount⟩

theorem measureReference_fields (r : Rtg) : (measureReference r).lock = r.lock
    ∧ (measureReference r).enable = r.enable ∧ (measureReference r).pendingSetup = r.pendingSetup
    ∧ (measureReference r).raster = r.raster := by
  unfold measureReference
  dsimp only
  split <;> exact ⟨rfl, rfl, rfl, rfl⟩

theorem evaluateReference_core {r : Rtg} (h : TimingCore r) : TimingCore (evaluateReference r) := by
  have measured := measureReference_core (applyEnable_core h)
  unfold evaluateReference
  dsimp only
  split
  · exact evaluateOn_core measured
  · exact measured

theorem evaluateReference_fields (r : Rtg) : ((evaluateReference r).lock = .free ↔ r.enable = false)
    ∧ (evaluateReference r).enable = r.enable ∧ (evaluateReference r).pendingSetup = r.pendingSetup
    ∧ (evaluateReference r).raster = r.raster := by
  obtain ⟨lock, enable, pending, raster⟩ := measureReference_fields (applyEnable r)
  obtain ⟨free, enable', pending', raster'⟩ := applyEnable_fields r
  unfold evaluateReference
  dsimp only
  split_ifs with on
  · have off : r.enable ≠ false := by simpa [← enable', ← enable] using on
    obtain ⟨lock'', enable'', pending'', raster''⟩ :=
      evaluateOn_fields (r := measureReference (applyEnable r)) (by rw [lock, ne_eq, free]; exact off)
    exact ⟨iff_of_false lock'' off, by rw [enable'', enable, enable'], by rw [pending'', pending, pending'],
      by rw [raster'', raster, raster']⟩
  · exact ⟨by rw [lock, free], by rw [enable, enable'], by rw [pending, pending'], by rw [raster, raster']⟩

/-! ### The pending timing setup and the switch point -/

/-- The pending setup acts on the enable, and the enable on the state (R7, R15). -/
theorem applyTimingSetup_inv {r : Rtg} (h : TimingInv r) : TimingInv (applyTimingSetup r)
    ∧ (applyTimingSetup r).pendingSetup = none := by
  unfold applyTimingSetup
  split
  · next none => exact ⟨h, none⟩
  · next ts _ =>
    have core := h.core
    dsimp only
    split
    · obtain ⟨free, enable, pending, -⟩ := applyEnable_fields { r with enable := ts.enable, pendingSetup := none }
      exact ⟨(applyEnable_core (⟨core.trim, core.phase, core.periods, core.holdover, core.missRange, core.inWindow,
        core.outCount⟩ : TimingCore { r with enable := ts.enable, pendingSetup := none })).inv
          (by rw [free, enable]) (by simp [pending]), pending⟩
    · refine ⟨⟨h.trim, h.phase, by simp [clearCounts], ?_, ?_, by simp [clearCounts], by simp [clearCounts],
        by simp [clearCounts], by simp [clearCounts]⟩, rfl⟩
      all_goals cases ts.enable <;> simp [clearCounts]

theorem rtgSwitch_inv {r : Rtg} (h : TimingInv r) : TimingInv (rtgSwitch r) := by
  obtain ⟨applied, none⟩ := applyTimingSetup_inv h
  have evaluated : TimingInv
      (if rasterChanges r then applyTimingSetup r else evaluateReference (applyTimingSetup r)) := by
    split
    · exact applied
    · obtain ⟨free, enable, pending, -⟩ := evaluateReference_fields (applyTimingSetup r)
      exact (evaluateReference_core applied.core).inv (by rw [free, enable]) (by simp [pending, none])
  exact ⟨evaluated.trim, evaluated.phase, evaluated.periods, evaluated.free, evaluated.holdover,
    evaluated.missRange, evaluated.inWindow, evaluated.outCount, evaluated.pendingNew⟩

theorem timeLine_inv {r : Rtg} (h : TimingInv r) (now : Nat) : TimingInv (timeLine now r) := by
  unfold timeLine
  split
  · exact ⟨h.trim, h.phase, h.periods, h.free, h.holdover, h.missRange, h.inWindow, h.outCount, h.pendingNew⟩
  · exact ⟨h.trim, h.phase, by simp, h.free, h.holdover, h.missRange, h.inWindow, h.outCount, h.pendingNew⟩

/-! ### The bus inputs and the crosspoint link -/

theorem goLiveInput_inv {i : InputRec} (h : InputInv i) : InputInv (goLiveInput i) := by
  unfold goLiveInput
  split_ifs
  · exact ⟨le_refl 2, h.advance, h.judged⟩
  · exact ⟨Nat.zero_le 2, h.advance, h.judged⟩
  · exact h

theorem settleInput_inv {i : InputRec} (h : InputInv i) : InputInv (settleInput i) := by
  unfold settleInput
  split_ifs
  · exact ⟨le_refl 2, h.advance, h.judged⟩
  · exact h

theorem measureInput_le {r : Rtg} {i : InputRec} {a : Nat} (h : measureInput r i = some a) : a ≤ 15 := by
  unfold measureInput at h
  split at h
  · cases h
  · split at h <;> cases h
    exact Nat.min_le_left _ _

theorem setStatus_inv (st : InputStatus) (i : InputRec) (h : InputInv i) : InputInv (setStatus st i) where
  settle := h.settle
  advance := h.advance
  judged := by
    dsimp only [setStatus]
    split
    · exact h.judged
    · next judged => exact judged

theorem judgeInput_inv (r : Rtg) (lMin lMax : Nat) {i : InputRec} (h : InputInv i) :
    InputInv (judgeInput r lMin lMax i) := by
  unfold judgeInput
  dsimp only
  split
  · split
    · exact setStatus_inv _ _ ⟨h.settle, fun _ => measureInput_le, h.judged⟩
    · exact setStatus_inv _ _ ⟨(Nat.sub_le _ _).trans h.settle, fun _ => measureInput_le, h.judged⟩
  · exact setStatus_inv _ _ ⟨Nat.zero_le 2, nofun, h.judged⟩

theorem issueInput_inv {i : InputRec} (h : InputInv i) : InputInv (issueInput i) := by
  unfold issueInput
  split_ifs
  · exact ⟨h.settle, h.advance, h.judged⟩
  · exact h

/-- An operation on every input record that keeps its ranges keeps the inputs' invariant. -/
theorem mapInputs_inv {f : InputRec → InputRec} (hf : ∀ {i}, InputInv i → InputInv (f i)) {s : State}
    (h : InputsInv s) : InputsInv (mapInputs f s) :=
  ⟨fun i => by simpa [mapInputs] using hf (h.inputs i), h.thresholds, h.sent, h.burst, h.burstExternal, h.clip⟩

/-- A crosspoint record names its input and carries an external source (R26). -/
theorem recordFor_some {s : State} {i : InputId} {x : XpRecord} (h : recordFor s i = some x) :
    x.input = i ∧ isExternal x.source = true := by
  unfold recordFor at h
  dsimp only at h
  split at h
  · next sends =>
    cases h
    simp only [Bool.and_eq_true] at sends
    exact ⟨rfl, sends.1.2⟩
  · cases h

theorem issueAll_inv (xready : Bool) {s : State} (h : InputsInv s) : InputsInv (issueAll xready s) := by
  unfold issueAll
  split
  · have issued := mapInputs_inv (fun h => issueInput_inv h) h
    refine ⟨issued.inputs, h.thresholds, fun i src e => ?_, ?_, fun x hx => ?_, h.clip⟩
    · simp only [get_buildInputs, lastSentAfter] at e
      split at e
      · next x sent =>
        cases e
        exact (recordFor_some sent).2
      · exact h.sent i src e
    · have ascending : InputId.all.Pairwise fun a b => inputNumber a < inputNumber b := by decide
      refine ascending.filterMap (recordFor s) fun a b lt x hx y hy => ?_
      rwa [(recordFor_some hx).1, (recordFor_some hy).1]
    · obtain ⟨i, -, sent⟩ := List.mem_filterMap.1 hx
      exact (recordFor_some sent).2
  · exact ⟨h.inputs, h.thresholds, h.sent, .nil, nofun, h.clip⟩

theorem goLiveAll_inv {s : State} (h : InputsInv s) : InputsInv (goLiveAll s) := by
  refine mapInputs_inv (fun {i} h => ?_) h
  split
  · exact ⟨Nat.zero_le 2, h.advance, h.judged⟩
  · exact goLiveInput_inv h

theorem settleAll_inv (directive : Bool) {s : State} (h : InputsInv s) : InputsInv (settleAll directive s) := by
  unfold settleAll
  split
  · exact mapInputs_inv (fun h => settleInput_inv h) h
  · exact h

theorem inputsSwitch_inv (r : Rtg) (xready : Bool) {s : State} (h : InputsInv s) :
    InputsInv (inputsSwitch r xready s) :=
  issueAll_inv xready (mapInputs_inv (fun h => judgeInput_inv r _ _ h) (settleAll_inv _ (goLiveAll_inv h)))

theorem raiseAllWhen_inputsInv (c : Bool) (n : Notice) {s : State} (h : InputsInv s) :
    InputsInv (raiseAllWhen c n s) := by
  rcases raiseAllWhen_cases c n s with ⟨-, e⟩ | ⟨-, e⟩ <;> rw [e]
  · exact h.congr rfl rfl rfl
  · exact h

theorem closeClipFrame_inv {s : State} (h : InputsInv s) : InputsInv (closeClipFrame s) :=
  raiseAllWhen_inputsInv _ .clip ⟨h.inputs, h.thresholds, h.sent, h.burst, h.burstExternal, ⟨Nat.zero_le _, h.clip.1⟩⟩

theorem renderSample_inv (x y : Nat) (inputs : PerInput Pixel) {s : State} (h : InputsInv s) :
    InputsInv (renderSample x y inputs s) := by
  obtain ⟨working, count⟩ := h.clip
  refine ⟨h.inputs, h.thresholds, h.sent, h.burst, h.burstExternal, ?_, count⟩
  dsimp only [renderSample]
  split
  · exact Nat.min_le_right _ _
  · exact working

/-! ### Every row -/

/-- Commands leave the ranges of the timing generator and of the inputs. -/
theorem CommandKeeps.timingInv {s t : State} (k : CommandKeeps s t) (h : TimingInv s.rtg) : TimingInv t.rtg := by
  have new := k.pendingNew h.pendingNew
  obtain ⟨ts, c, e⟩ := k.rtg
  rw [e] at new ⊢
  exact ⟨h.trim, h.phase, h.periods, h.free, h.holdover, h.missRange, h.inWindow, h.outCount, new⟩

theorem CommandKeeps.inputsInv {s t : State} (k : CommandKeeps s t) (h : InputsInv s) : InputsInv t where
  inputs i := by
    obtain ⟨_, _, _, e⟩ := k.inputs i
    have old := h.inputs i
    rw [e]
    exact ⟨old.settle, old.advance, old.judged⟩
  thresholds := k.thresholds h.thresholds
  sent i src e := by
    rcases k.lastSent i with same | gone
    · exact h.sent i src (same ▸ e)
    · simp [gone] at e
  burst := k.burst ▸ h.burst
  burstExternal := k.burst ▸ h.burstExternal
  clip := by
    obtain ⟨b, e⟩ := k.cmp
    rw [e]
    exact h.clip

theorem StageKeeps.inputsInv {s t : State} (k : StageKeeps s t) (h : InputsInv s) : InputsInv t :=
  h.congr k.bi k.xl k.cmp

/-- The timing generator's and the inputs' invariants together. -/
def TimingAndInputs (s : State) : Prop := TimingInv s.rtg ∧ InputsInv s

theorem CommandKeeps.timingAndInputs {s t : State} (k : CommandKeeps s t) (h : TimingAndInputs s) :
    TimingAndInputs t := ⟨k.timingInv h.1, k.inputsInv h.2⟩

theorem StageKeeps.timingAndInputs {s t : State} (k : StageKeeps s t) (h : TimingAndInputs s) :
    TimingAndInputs t := ⟨k.rtg ▸ h.1, k.inputsInv h.2⟩

theorem SameBlocks.timingAndInputs {s t : State} (k : SameBlocks s t) (h : TimingAndInputs s) :
    TimingAndInputs t := ⟨k.rtg ▸ h.1, h.2.congr k.bi k.xl k.cmp⟩

theorem sceneCutStage_timingAndInputs {s : State} (h : TimingAndInputs s) : TimingAndInputs (sceneCutStage s) := by
  rcases sceneCutStage_cases s with ⟨-, e⟩ | ⟨c, -, ⟨-, -, e⟩ | ⟨-, e⟩⟩ <;> rw [e]
  · exact h
  · exact ⟨h.1, h.2.congr rfl rfl rfl⟩
  · exact ⟨h.1, h.2.congr rfl rfl rfl⟩

/-- The switch point keeps both invariants part by part. -/
theorem switchPointWork_timingAndInputs (xready : Bool) {s : State} (h : TimingAndInputs s) :
    TimingAndInputs (switchPointWork xready s) := by
  have timed : TimingAndInputs (timingSwitch (closeClipFrame s)) :=
    ⟨by simpa [timingSwitch, closeClipFrame] using rtgSwitch_inv h.1,
      raiseAllWhen_inputsInv _ .ref ((closeClipFrame_inv h.2).congr rfl rfl rfl)⟩
  have inputs : TimingAndInputs (inputsSwitch s.rtg xready (timingSwitch (closeClipFrame s))) :=
    ⟨by simpa [inputsSwitch, goLiveAll, judgeAll] using timed.1, inputsSwitch_inv s.rtg xready timed.2⟩
  have setups : TimingAndInputs (setupSwitch (rasterChanges s.rtg) _) :=
    ⟨by simpa [setupSwitch] using inputs.1, inputs.2.congr (by simp [setupSwitch]) (by simp [setupSwitch])
      (by simp [setupSwitch])⟩
  have taken : TimingAndInputs (frameTake (quietStep _)) :=
    frameTake_keeps StageKeeps.timingAndInputs sceneCutStage_timingAndInputs
      ((quietStep_stageKeeps _).timingAndInputs setups)
  have noticed : TimingAndInputs (inputNotice s.bi.inputs _) :=
    ⟨by simpa [inputNotice] using taken.1, raiseAllWhen_inputsInv _ .input taken.2⟩
  have published : TimingAndInputs (publishTally (inputNotice s.bi.inputs _)) :=
    ⟨by simpa [publishTally_eq] using noticed.1, noticed.2.congr (by simp [publishTally_eq])
      (by simp [publishTally_eq]) (by simp [publishTally_eq])⟩
  exact (releaseDue_commandKeeps _).timingAndInputs published

theorem timingSetupWork_timingAndInputs {s : State} (h : TimingAndInputs s) :
    TimingAndInputs (timingSetupWork s) := by
  have applied := (applyTimingSetup_inv h.1).1
  refine ⟨by simpa [timingSetupWork] using applied, ?_⟩
  have settled := settleAll_inv (rasterChanges s.rtg) (raiseAllWhen_inputsInv
    (decide ((applyTimingSetup s.rtg).lock ≠ s.rtg.lock)) .ref
    (h.2.congr (t := { s with rtg := applyTimingSetup s.rtg }) rfl rfl rfl))
  exact settled.congr (by simp [timingSetupWork]) (by simp [timingSetupWork]) (by simp [timingSetupWork])

theorem inputMarker_inv {s : State} (h : InputsInv s) (i : InputId) (m : Option Nat) :
    InputsInv (s.setInput i { s.input i with marker := m }) := by
  refine ⟨fun j => ?_, h.thresholds, h.sent, h.burst, h.burstExternal, h.clip⟩
  by_cases e : j = i
  · subst e
    simpa using (⟨(h.inputs j).settle, (h.inputs j).advance, (h.inputs j).judged⟩ :
      InputInv { s.bi.inputs.get j with marker := m })
  · simpa [e] using h.inputs j

theorem timingAndInputs_kept : KeptByRows TimingAndInputs where
  ofInv h := ⟨h.timing, h.inputs⟩
  congr same h := same.timingAndInputs h
  dealt deal h := deal.commandKeeps.timingAndInputs ⟨h.timing, h.inputs⟩
  timed {c f s} event h := by
    have both : TimingAndInputs s := ⟨h.timing, h.inputs⟩
    refine event.keeps StageKeeps.timingAndInputs sceneCutStage_timingAndInputs both fun noStage => ?_
    cases event with
    | lineSync t => exact ⟨timeLine_inv h.timing _, h.inputs.congr rfl rfl rfl⟩
    | frameMarker t =>
      have := h.timing
      exact ⟨⟨this.trim, this.phase, this.periods, this.free, this.holdover, this.missRange, this.inWindow,
        this.outCount, this.pendingNew⟩, h.inputs.congr rfl rfl rfl⟩
    | inputMarker i t => exact ⟨h.timing, inputMarker_inv h.inputs i _⟩
    | sample x y inputs =>
      dsimp only
      split
      · exact ⟨h.timing, renderSample_inv x y inputs h.inputs⟩
      · exact both
    | switchPoint xready => exact switchPointWork_timingAndInputs xready both
    | timingSetupApply => exact timingSetupWork_timingAndInputs both
    | issue xready => exact ⟨by simpa using h.timing, issueAll_inv xready h.inputs⟩
    | goLive => exact ⟨h.timing, goLiveAll_inv h.inputs⟩
    | cueRelease => exact (releaseFirst_commandKeeps s).timingAndInputs both
    | _ => cases noStage

/-- Settles O55: every row keeps the ranges of the timing generator and of the inputs. -/
theorem stepKeepsTimingAndInputs : Obligations.StepKeepsTimingAndInputs :=
  fun _ _ inv h => timingAndInputs_kept.step inv h

end Sys2Proof.Machine
end

section
/-!
SUPPORT. The cue queue and the tally as data (chapters 8 and 9): the place of a new entry, the first free tag,
the table derived from the state, and a change list.
-/

namespace Sys2Proof.Machine

/-! ### The place of a new cue (R141) -/

/-- A new entry splits the queue: everything before it is no further than it, and what follows it is further
when the queue is in order. -/
theorem insertCue_split (counter : Word) (e : CueEntry) (es : List CueEntry) :
    ∃ front back, es = front ++ back ∧ insertCue counter e es = front ++ e :: back
      ∧ (∀ x ∈ front, distance counter x.target ≤ distance counter e.target)
      ∧ ((es.Pairwise fun a b => distance counter a.target ≤ distance counter b.target) →
        ∀ x ∈ back, distance counter e.target < distance counter x.target) := by
  induction es with
  | nil => exact ⟨[], [], rfl, rfl, nofun, nofun⟩
  | cons x rest ih =>
    unfold insertCue
    split
    · next near =>
      obtain ⟨front, back, parts, inserted, before, after⟩ := ih
      refine ⟨x :: front, back, by rw [parts]; rfl, by rw [inserted]; rfl, ?_, fun sorted => after sorted.of_cons⟩
      exact List.forall_mem_cons.2 ⟨near, before⟩
    · next far =>
      refine ⟨[], x :: rest, rfl, rfl, nofun, fun sorted => List.forall_mem_cons.2 ⟨Nat.lt_of_not_le far, ?_⟩⟩
      exact fun y hy => (Nat.lt_of_not_le far).trans_le (List.rel_of_pairwise_cons sorted hy)

/-! ### The first free tag (R142) -/

theorem tagAfter_toNat {t : Half} (h : t ≠ 0) : (tagAfter t).toNat = t.toNat % 65535 + 1 := by
  unfold tagAfter
  split
  · next last => rw [last]; rfl
  · next more =>
    have := t.isLt
    have : t.toNat ≠ 0 := fun e => h (BitVec.eq_of_toNat_eq e)
    have : t.toNat ≠ 65535 := fun e => more (BitVec.eq_of_toNat_eq e)
    rw [BitVec.toNat_add, show (1 : Half).toNat = 1 from rfl]
    omega

theorem tagAfter_ne_zero (t : Half) : tagAfter t ≠ 0 := by
  by_cases h : t = 0
  · subst h
    decide
  · intro e
    have := tagAfter_toNat h
    simp [e] at this

theorem tagAfter_iterate_ne_zero {t : Half} (h : t ≠ 0) (n : Nat) : tagAfter^[n] t ≠ 0 := by
  cases n with
  | zero => exact h
  | succ n =>
    rw [Function.iterate_succ_apply']
    exact tagAfter_ne_zero _

/-- The tags after a tag go round through 1 to 65535. -/
theorem tagAfter_iterate_toNat {t : Half} (h : t ≠ 0) (n : Nat) :
    (tagAfter^[n] t).toNat = (t.toNat - 1 + n) % 65535 + 1 := by
  have := t.isLt
  have : t.toNat ≠ 0 := fun e => h (BitVec.eq_of_toNat_eq e)
  induction n with
  | zero => simp only [Function.iterate_zero, id_eq]; omega
  | succ n ih =>
    rw [Function.iterate_succ_apply', tagAfter_toNat (tagAfter_iterate_ne_zero h n), ih]
    omega

theorem tagAfter_iterate_injOn {t : Half} (h : t ≠ 0) {m n : Nat} (hm : m < 65535) (hn : n < 65535)
    (e : tagAfter^[m] t = tagAfter^[n] t) : m = n := by
  have := congrArg BitVec.toNat e
  rw [tagAfter_iterate_toNat h, tagAfter_iterate_toNat h] at this
  omega

/-- The search for a free tag passes over tags in use, and stops at a free one or when its tries are over. -/
theorem freeTag_tries (entries : List CueEntry) (fuel : Nat) (t : Half) :
    ∃ tries, freeTag entries fuel t = tagAfter^[tries] t
      ∧ (∀ n, n < tries → tagInUse entries (tagAfter^[n] t) = true)
      ∧ (tries = fuel ∨ tagInUse entries (freeTag entries fuel t) = false) := by
  induction fuel generalizing t with
  | zero => exact ⟨0, rfl, nofun, .inl rfl⟩
  | succ fuel ih =>
    unfold freeTag
    split
    · next used =>
      obtain ⟨tries, found, passed, stop⟩ := ih (tagAfter t)
      refine ⟨tries + 1, by rw [found, Function.iterate_succ_apply], fun n hn => ?_, stop.imp_left (congrArg _)⟩
      cases n with
      | zero => exact used
      | succ n => exact passed n (Nat.lt_of_succ_lt_succ hn)
    · next free => exact ⟨0, rfl, nofun, .inr (by simpa using free)⟩

theorem tagInUse_iff (entries : List CueEntry) (t : Half) :
    tagInUse entries t = true ↔ ∃ e ∈ entries, e.tag = t := by simp [tagInUse]

/-- The next tag is the first free one from `nextTag` on: a queue below its capacity cannot use all the tags
tried. -/
theorem nextFreeTag_first {q : Cq} (next : q.nextTag ≠ 0) (room : q.entries.length ≤ 32) :
    ∃ tries, nextFreeTag q = tagAfter^[tries] q.nextTag
      ∧ (∀ n, n < tries → ∃ e ∈ q.entries, e.tag = tagAfter^[n] q.nextTag)
      ∧ ∀ e ∈ q.entries, e.tag ≠ nextFreeTag q := by
  obtain ⟨tries, found, passed, stop⟩ := freeTag_tries q.entries (q.entries.length + 1) q.nextTag
  refine ⟨tries, found, fun n hn => (tagInUse_iff _ _).1 (passed n hn), ?_⟩
  have free : tagInUse q.entries (nextFreeTag q) = false := by
    refine stop.resolve_left fun all => ?_
    have inside : (Finset.range tries).image (fun n => tagAfter^[n] q.nextTag)
        ⊆ (q.entries.map CueEntry.tag).toFinset := fun t ht => by
      obtain ⟨n, hn, rfl⟩ := Finset.mem_image.1 ht
      obtain ⟨e, he, tag⟩ := (tagInUse_iff _ _).1 (passed n (Finset.mem_range.1 hn))
      exact List.mem_toFinset.2 (List.mem_map.2 ⟨e, he, tag⟩)
    have distinct : ((Finset.range tries).image fun n => tagAfter^[n] q.nextTag).card = tries := by
      rw [Finset.card_image_of_injOn, Finset.card_range]
      intro m hm n hn e
      have hm := Finset.mem_range.1 hm
      have hn := Finset.mem_range.1 hn
      exact tagAfter_iterate_injOn next (by omega) (by omega) e
    have few := (Finset.card_le_card inside).trans (List.toFinset_card_le _)
    rw [distinct, List.length_map] at few
    omega
  intro e he same
  exact Bool.eq_false_iff.1 free ((tagInUse_iff _ _).2 ⟨e, he, same⟩)

theorem nextFreeTag_ne_zero {q : Cq} (next : q.nextTag ≠ 0) : nextFreeTag q ≠ 0 := by
  obtain ⟨tries, found, -, -⟩ := freeTag_tries q.entries (q.entries.length + 1) q.nextTag
  rw [nextFreeTag, found]
  exact tagAfter_iterate_ne_zero next tries

/-! ### The queue's invariant -/

/-- The queue keeps its invariant when entries leave it, and at a counter no entry is out of reach of. -/
theorem CueInv.sublist {counter : Word} {q : Cq} (h : CueInv counter q) {es : List CueEntry}
    (sub : es.Sublist q.entries) : CueInv counter { q with entries := es } where
  count := sub.length_le.trans h.count
  tags e he := h.tags e (sub.subset he)
  distinct := h.distinct.sublist (sub.map _)
  ahead e he := h.ahead e (sub.subset he)
  sorted := h.sorted.sublist sub
  embedded e he := h.embedded e (sub.subset he)
  nextTag := h.nextTag
  failures := h.failures

/-- The entries that stay within 1 to 65535 of a new counter keep their order (R150). -/
theorem CueInv.recounted {counter v : Word} {q : Cq} (h : CueInv counter q) {es : List CueEntry}
    (sub : es.Sublist q.entries)
    (near : ∀ e ∈ es, 1 ≤ distance v e.target ∧ distance v e.target ≤ 65535) :
    CueInv v { q with entries := es } where
  count := sub.length_le.trans h.count
  tags e he := h.tags e (sub.subset he)
  distinct := h.distinct.sublist (sub.map _)
  ahead := near
  sorted := by
    refine (h.sorted.sublist sub).imp_of_mem fun {a b} ha hb le => ?_
    have oldA := h.ahead a (sub.subset ha)
    have oldB := h.ahead b (sub.subset hb)
    have newA := near a ha
    have newB := near b hb
    simp only [distance, BitVec.toNat_sub] at *
    omega
  embedded e he := h.embedded e (sub.subset he)
  nextTag := h.nextTag
  failures := h.failures

/-- The counter's step to the next frame leaves the entries that are not due within reach (R145). -/
theorem CueInv.counted {counter : Word} {q : Cq} (h : CueInv counter q) :
    CueInv (counter + 1) { q with entries := q.entries.filter fun e => !(e.target == counter + 1) } := by
  refine h.recounted List.filter_sublist fun e he => ?_
  obtain ⟨he, notDue⟩ := List.mem_filter.1 he
  have old := h.ahead e he
  have late : e.target.toNat ≠ (counter + 1).toNat := fun same => by
    simp [BitVec.eq_of_toNat_eq same] at notDue
  simp only [distance, BitVec.toNat_sub, BitVec.toNat_add, show (1 : Word).toNat = 1 from rfl] at *
  have := e.target.isLt
  have := counter.isLt
  omega

theorem CueInv.notDue {counter : Word} {q : Cq} (h : CueInv counter q) {e : CueEntry} (he : e ∈ q.entries) :
    e.target ≠ counter := fun same => by
  have := h.ahead e he
  simp [distance, same] at this

theorem CueInv.failed {counter : Word} {q : Cq} (h : CueInv counter q) (p : Port) {f : CueFailure}
    (tag : f.tag ≠ 0) (refused : f.outcome.refused = true) :
    CueInv counter { q with failures := q.failures.set p (some f) } where
  count := h.count
  tags := h.tags
  distinct := h.distinct
  ahead := h.ahead
  sorted := h.sorted
  embedded := h.embedded
  nextTag := h.nextTag
  failures r g e := by
    by_cases hr : r = p
    · subst hr
      simp only [PerPort.get_set_self, Option.some.injEq] at e
      exact e ▸ ⟨tag, refused⟩
    · rw [PerPort.get_set_ne _ _ hr] at e
      exact h.failures r g e

theorem CueInv.forgotten {counter : Word} {q : Cq} (h : CueInv counter q) (p : Port) :
    CueInv counter { q with failures := q.failures.set p none } where
  count := h.count
  tags := h.tags
  distinct := h.distinct
  ahead := h.ahead
  sorted := h.sorted
  embedded := h.embedded
  nextTag := h.nextTag
  failures r g e := by
    by_cases hr : r = p
    · subst hr
      simp at e
    · rw [PerPort.get_set_ne _ _ hr] at e
      exact h.failures r g e

/-- A new entry under a free tag, within 1 to 65535 of the counter, keeps the queue's invariant. -/
theorem CueInv.inserted {counter : Word} {q : Cq} (h : CueInv counter q) {e : CueEntry}
    (room : q.entries.length < 32) (tag : e.tag = nextFreeTag q)
    (near : 1 ≤ distance counter e.target ∧ distance counter e.target ≤ 65535)
    (embedded : (parseCue e.code e.args).isSome = true) :
    CueInv counter { q with entries := insertCue counter e q.entries, nextTag := tagAfter e.tag } := by
  obtain ⟨front, back, parts, inserted, before, after⟩ := insertCue_split counter e q.entries
  obtain ⟨-, -, -, free⟩ := nextFreeTag_first h.nextTag h.count
  have perm : (insertCue counter e q.entries).Perm (e :: q.entries) := by
    rw [inserted, parts]
    exact List.perm_middle
  have each : ∀ {P : CueEntry → Prop}, P e → (∀ x ∈ q.entries, P x) → ∀ x ∈ insertCue counter e q.entries, P x :=
    fun new old x hx => List.forall_mem_cons.2 ⟨new, old⟩ x (perm.subset hx)
  have sorted := h.sorted
  refine ⟨?_, each ?_ h.tags, ?_, each near h.ahead, ?_, each embedded h.embedded, tagAfter_ne_zero _, h.failures⟩
  · rw [perm.length_eq]
    exact room
  · exact tag ▸ nextFreeTag_ne_zero h.nextTag
  · refine (perm.map _).nodup_iff.2 (List.nodup_cons.2 ⟨fun used => ?_, h.distinct⟩)
    obtain ⟨x, hx, same⟩ := List.mem_map.1 used
    exact free x hx (same.trans tag)
  · have after := after sorted
    rw [parts, List.pairwise_append] at sorted
    obtain ⟨sortedFront, sortedBack, across⟩ := sorted
    rw [inserted]
    exact List.pairwise_append.2 ⟨sortedFront,
      List.pairwise_cons.2 ⟨fun x hx => (after x hx).le, sortedBack⟩,
      fun a ha => List.forall_mem_cons.2 ⟨before a ha, across a ha⟩⟩

/-! ### The table and the change lists (R131, R135) -/

theorem mem_allInputs (i : InputId) : i ∈ InputId.all := by
  cases i with
  | bga | bgb => decide
  | fill k | key k => cases k <;> decide

theorem carriedBy_iff (s : State) (src : Source) (pick : InputId → Bool) :
    carriedBy s src pick = true ↔ ∃ i, (s.input i).live = src ∧ pick i = true := by
  simp only [carriedBy, List.any_eq_true, mem_allInputs, Bool.and_eq_true, decide_eq_true_eq, true_and]

theorem LayerSet.nonEmpty_iff (l : LayerSet) :
    l.nonEmpty = true ↔ l.bkgd = true ∨ ∃ k, l.keyers.get k = true := by
  obtain ⟨b, ⟨k1, k2, k3, k4⟩⟩ := l
  have layer : (∃ k, (PerKeyer.mk k1 k2 k3 k4).get k = true) ↔ k1 = true ∨ k2 = true ∨ k3 = true ∨ k4 = true := by
    constructor
    · rintro ⟨k, h⟩
      cases k <;> simp_all [PerKeyer.get]
    · rintro (h | h | h | h)
      exacts [⟨.k1, h⟩, ⟨.k2, h⟩, ⟨.k3, h⟩, ⟨.k4, h⟩]
  simp [LayerSet.nonEmpty, layer, or_assoc]

/-- A source reaches program exactly when it does through some layer (R131). -/
theorem tallyEntry_onProgram (s : State) (src : Source) :
    (tallyEntry s src).onProgram = (tallyEntry s src).layers.nonEmpty := by
  rw [Bool.eq_iff_iff, LayerSet.nonEmpty_iff]
  simp only [tallyEntry, programLayers, PerKeyer.get_build, carriedBy_iff, Bool.and_eq_true]
  constructor
  · rintro ⟨i, live, program⟩
    cases i with
    | bga | bgb => exact .inl ⟨_, live, program, rfl⟩
    | fill k | key k => exact .inr ⟨k, _, live, program, decide_eq_true rfl⟩
  · rintro (⟨i, live, program, -⟩ | ⟨k, i, live, program, -⟩) <;> exact ⟨i, live, program⟩

theorem tallyTable_get (s : State) (src : Source) : (tallyTable s)[src] = tallyEntry s src := by
  simp [tallyTable, allSources]

/-- A change list holds at most 32 sources, each once (R135). -/
def ChangeList.Fits (c : ChangeList) : Prop := c.sources.length ≤ 32 ∧ c.sources.Nodup

theorem noteChange_fits {c : ChangeList} (h : c.Fits) (src : Source) : (noteChange c src).Fits := by
  obtain ⟨short, once⟩ := h
  have few : (c.sources.filter fun x => x != src).length ≤ 32 := (List.length_filter_le _ _).trans short
  have nodup : (c.sources.filter (fun x => x != src) ++ [src]).Nodup := by
    refine List.nodup_append.2 ⟨once.filter _, List.nodup_singleton _, fun a ha b hb => ?_⟩
    obtain ⟨-, ne⟩ := List.mem_filter.1 ha
    simpa [List.mem_singleton.1 hb] using ne
  unfold noteChange
  dsimp only
  split
  · refine ⟨?_, nodup.sublist (List.tail_sublist _)⟩
    simp only [List.length_tail, List.length_append, List.length_singleton]
    exact few
  · next fits => exact ⟨Nat.le_of_not_lt fits, nodup⟩

theorem noteChanges_fits {c : ChangeList} (h : c.Fits) (srcs : List Source) : (srcs.foldl noteChange c).Fits := by
  induction srcs generalizing c with
  | nil => exact h
  | cons src srcs ih => exact ih (noteChange_fits h src)

theorem publishedTally_table (s : State) : (publishedTally s).table = tallyTable s := by
  unfold publishedTally
  dsimp only
  split <;> rfl

theorem publishedTally_changes (s : State) (p : Port) : (publishedTally s).changes.get p =
    (changedSources s.tu.table (tallyTable s)).foldl noteChange (s.tu.changes.get p) := by
  unfold publishedTally
  dsimp only
  split
  · next none => rw [List.isEmpty_iff.1 none]; rfl
  · simp

theorem publishedTally_inv {s : State} (h : TallyInv s.tu) : TallyInv (publishedTally s) where
  layers src := by
    rw [publishedTally_table, tallyTable_get]
    exact tallyEntry_onProgram s src
  lists p := by
    rw [publishedTally_changes]
    exact noteChanges_fits (h.lists p) _

end Sys2Proof.Machine
end

section
/-!
SUPPORT. What every command keeps of the invariants of the setups, the controller, the lever, the tally and the
cues (chapters 3 to 6 and 8 to 10). `InvKeep s t` says that `t` meets each of these invariants when `s` does.
-/

namespace Sys2Proof.Machine

/-- The invariants of the setups, the controller and the lever, the cues and the tally go from one state to
another, each by itself. -/
structure InvKeep (s t : State) : Prop where
  setup : SetupInv s → SetupInv t := by exact fun h => h.congr rfl rfl rfl rfl rfl
  transition : TransitionInv s → TransitionInv t := by exact fun h => h.congr rfl rfl
  cues : CueInv s.rtg.counter s.cq → CueInv t.rtg.counter t.cq := by exact id
  tally : TallyInv s.tu → TallyInv t.tu := by exact id

theorem InvKeep.refl (s : State) : InvKeep s s := ⟨id, id, id, id⟩

theorem InvKeep.trans {s t u : State} (h : InvKeep s t) (k : InvKeep t u) : InvKeep s u :=
  ⟨k.setup ∘ h.setup, k.transition ∘ h.transition, k.cues ∘ h.cues, k.tally ∘ h.tally⟩

/-! ### Answers -/

section Answers
variable {X : State → Prop} {s : State}

theorem checked_keeps {p : Port} {rs : List Resource} {ok : Bool} {rest : Answer} (same : X s)
    (h : ok = true → X rest.state) : X (checked p rs ok s rest).state := by
  rcases checked_cases p rs ok s rest with ⟨-, e⟩ | ⟨-, -, e⟩ | ⟨-, inRange, e⟩ <;> rw [e]
  · exact same
  · exact same
  · exact h inRange

theorem slotChecked_keeps {slot : Byte} {ok : Bool} {rest : Answer} (same : X s)
    (h : ok = true → X rest.state) : X (slotChecked slot ok s rest).state := by
  rcases slotChecked_cases slot ok s rest with ⟨-, e⟩ | ⟨-, -, e⟩ | ⟨-, inRange, e⟩ <;> rw [e]
  · exact same
  · exact same
  · exact h inRange

theorem unlessSame_keeps {b : Bool} {t : State} (same : X s) (h : X t) : X (unlessSame b t s).state := by
  rcases unlessSame_cases b t s with ⟨-, e⟩ | ⟨-, e⟩ <;> rw [e]
  · exact same
  · exact h

theorem ite_keeps {c : Prop} [Decidable c] {a b : Answer} (ha : c → X a.state) (hb : ¬c → X b.state) :
    X (if c then a else b).state := by
  split
  · next h => exact ha h
  · next h => exact hb h

end Answers

/-! ### The operations that commands are made of -/

theorem raiseTo_invKeep (n : Notice) (p : Port) (s : State) : InvKeep s (raiseTo n p s) := {}

theorem raiseAll_invKeep (n : Notice) (s : State) : InvKeep s (raiseAll n s) := {}

theorem raiseAllWhen_invKeep (b : Bool) (n : Notice) (s : State) : InvKeep s (raiseAllWhen b n s) := by
  rcases raiseAllWhen_cases b n s with ⟨-, e⟩ | ⟨-, e⟩ <;> rw [e]
  · exact raiseAll_invKeep n s
  · exact .refl s

theorem raiseEach_invKeep (n : Notice) (pick : Port → Bool) (s : State) : InvKeep s (raiseEach n pick s) := {}

theorem setPort_invKeep (s : State) (p : Port) (ps : PortState) : InvKeep s (s.setPort p ps) := {}

theorem request_invKeep (i : InputId) (src : Source) (s : State) : InvKeep s (request i src s) := {}

theorem setLocks_invKeep (locks : PerResource (Option Port)) (s : State) : InvKeep s (setLocks locks s) := {}

theorem freeLocks_invKeep (p : Port) (pick : Resource → Bool) (s : State) : InvKeep s (freeLocks p pick s) :=
  (setLocks_invKeep _ s).trans (raiseAllWhen_invKeep _ .locks _)

/-- A write of the next copy that keeps its ranges. -/
theorem mapNext_invKeep {f : Setup → Setup} {s : State}
    (h : CopyInv s.rtg.raster s.mes.next → CopyInv s.rtg.raster (f s.mes.next)) : InvKeep s (mapNext f s) where
  setup inv := ⟨h inv.next, inv.live, inv.sceneCut, inv.slots, inv.protect⟩

theorem markReload_invKeep (s : State) : InvKeep s { s with wg := { s.wg with reload := true } } := {}

theorem writeWipe_invKeep {w : WipeSetup} (h : WipeInv w) (s : State) : InvKeep s (writeWipe w s) :=
  (mapNext_invKeep (f := fun n => { n with wipe := w }) fun inv => { inv with wipe := h }).trans
    (markReload_invKeep _)

theorem setKeyer_inv {r : Raster} {st : Setup} (h : CopyInv r st) {k : Keyer} {rec : KeyerSetup}
    (hrec : KeyerInv (activeWidth r) (activeHeight r) rec) : CopyInv r (setKeyer k rec st) := by
  refine { h with keyers := fun l => ?_ }
  by_cases e : l = k
  · subst e
    simpa [setKeyer] using hrec
  · simpa [setKeyer, e] using h.keyers l

/-! ### Values read from frames -/

theorem selectionOf_nonEmpty {b : Byte} {sel : LayerSet} (h : selectionOf b = some sel) :
    sel.nonEmpty = true := by
  obtain ⟨-, nonEmpty⟩ := Option.filter_eq_some_iff.1 h
  exact nonEmpty

theorem orderOf_nodup {a b c d : Byte} {o : KeyOrder} (h : orderOf a b c d = some o) : o.toList.Nodup := by
  unfold orderOf at h
  split at h
  · split at h <;> cases h
    next kl km kn lm ln mn => simp [KeyOrder.toList, *]
  · cases h

theorem wipeOf_inv {pat rh rv f : Byte} {e x y : Half} {w : WipeSetup}
    (h : wipeOf pat e rh rv x y f = some w) : WipeInv w := by
  unfold wipeOf at h
  split at h
  · cases h
  · split at h <;> cases h
    next inRange =>
      obtain ⟨soft, rhLow, rhHigh, rvLow, rvHigh, cx, cy, -⟩ := inRange
      exact ⟨soft, ⟨rhLow, rhHigh⟩, ⟨rvLow, rvHigh⟩, cx, cy⟩

/-- A keyer setup with edges clamped to a raster lies in its ranges there (R40). -/
theorem clampCrop_inv {w h : Nat} {k : KeyerSetup} (inv : KeyerInv w h k) (r : Raster) :
    KeyerInv (activeWidth r) (activeHeight r) (clampCrop r k) :=
  ⟨inv.clip, inv.gain, inv.opacity, Nat.min_le_right _ _, Nat.min_le_right _ _, Nat.min_le_right _ _,
    Nat.min_le_right _ _⟩

/-! ### The scene store (R153, R155, R156) -/

theorem raster_width_le (r : Raster) : activeWidth r ≤ 3840 := by
  unfold activeWidth
  split <;> decide

theorem raster_height_le (r : Raster) : activeHeight r ≤ 2160 := by
  unfold activeHeight
  split <;> decide

theorem KeyerInv.wider {w h v g : Nat} {k : KeyerSetup} (inv : KeyerInv w h k) (hw : w ≤ v) (hh : h ≤ g) :
    KeyerInv v g k :=
  ⟨inv.clip, inv.gain, inv.opacity, inv.left.trans hw, inv.right.trans hw, inv.top.trans hh,
    inv.bottom.trans hh⟩

/-- A group mask in range names a group (R155). -/
theorem groupMask_names {mask : Byte} (low : 0 < mask.toNat) (high : mask.toNat < 16) :
    mask.getLsbD 0 = true ∨ mask.getLsbD 1 = true ∨ mask.getLsbD 2 = true ∨ mask.getLsbD 3 = true := by
  simp only [BitVec.getLsbD, Nat.testBit_eq_decide_div_mod_eq, decide_eq_true_eq]
  omega

theorem savedScene_inv {s : State} (h : SetupInv s) {mask : Byte} (low : 0 < mask.toNat)
    (high : mask.toNat < 16) : SceneInv (savedScene s mask) where
  groups := by
    refine (groupMask_names low high).imp ?_ (.imp ?_ (.imp ?_ ?_)) <;> intro bit <;> simp [savedScene, bit]
  keys ks e k := by
    simp only [savedScene] at e
    split at e <;> cases e
    simpa [savedKeyer] using (h.next.keyers k).wider (raster_width_le _) (raster_height_le _)
  trans t e := by
    simp only [savedScene] at e
    split at e <;> cases e
    exact ⟨h.next.selection, h.next.rate, h.next.wipe⟩
  order o e := by
    simp only [savedScene] at e
    split at e <;> cases e
    exact h.next.order

theorem sceneKeyerOf_inv {bytes : List Byte} {k : SceneKeyer} (h : sceneKeyerOf bytes = some k) :
    KeyerInv 3840 2160 k.setup := by
  unfold sceneKeyerOf at h
  split at h
  · split at h
    · split at h <;> cases h
      next inRange =>
        obtain ⟨-, clip, gain, opacity, left, right, top, bottom⟩ := inRange
        exact ⟨clip, gain, opacity, left, right, top, bottom⟩
    · cases h
  · cases h

theorem sceneKeysOf_inv {bytes : List Byte} {ks : PerKeyer SceneKeyer} (h : sceneKeysOf bytes = some ks)
    (k : Keyer) : KeyerInv 3840 2160 (ks.get k).setup := by
  unfold sceneKeysOf at h
  split at h <;> cases h
  next ha hb hc hd =>
    cases k
    exacts [sceneKeyerOf_inv ha, sceneKeyerOf_inv hb, sceneKeyerOf_inv hc, sceneKeyerOf_inv hd]

theorem sceneTransOf_inv {bytes : List Byte} {t : SceneTrans} (h : sceneTransOf bytes = some t) :
    t.selection.nonEmpty = true ∧ t.rate ≤ 999 ∧ WipeInv t.wipe := by
  unfold sceneTransOf at h
  split at h
  · split at h
    · next selection _ wipe =>
      split at h <;> cases h
      next rate => exact ⟨selectionOf_nonEmpty selection, rate, wipeOf_inv wipe⟩
    · cases h
  · cases h

theorem sceneOrderOf_inv {bytes : List Byte} {o : KeyOrder} (h : sceneOrderOf bytes = some o) :
    o.toList.Nodup := by
  unfold sceneOrderOf at h
  split at h
  · exact orderOf_nodup h
  · cases h

/-- A part that the mask names is the part that its bytes spell; another is absent. -/
theorem scenePart_some {α : Type} {present : Bool} {part : Option α} {o : Option α}
    (h : scenePart present part = some o) : o.isSome = present ∧ ∀ a, o = some a → part = some a := by
  unfold scenePart at h
  split at h
  · next named =>
    obtain ⟨a, spelled, rfl⟩ := Option.map_eq_some_iff.1 h
    exact ⟨named.symm, fun b e => Option.some.inj e ▸ spelled⟩
  · next absent =>
    cases h
    exact ⟨by simpa using absent, nofun⟩

theorem sceneOf_inv {mask : Byte} {parts : List Byte} {sc : Scene} (h : sceneOf mask parts = some sc) :
    SceneInv sc := by
  unfold sceneOf at h
  split at h
  · cases h
  · next inRange =>
    dsimp only at h
    split at h <;> cases h
    next hb hk ht ho =>
      obtain ⟨isB, -⟩ := scenePart_some hb
      obtain ⟨isK, keys⟩ := scenePart_some hk
      obtain ⟨isT, trans⟩ := scenePart_some ht
      obtain ⟨isO, order⟩ := scenePart_some ho
      refine ⟨?_, fun ks e k => sceneKeysOf_inv (keys ks e) k, fun t e => sceneTransOf_inv (trans t e),
        fun o e => sceneOrderOf_inv (order o e)⟩
      dsimp only
      rw [isB, isK, isT, isO]
      exact groupMask_names (by omega) (by omega)

/-- A slot that is written with a record in range, or erased. -/
theorem setSlot_invKeep {s : State} {n : Slot} {sc : Option Scene} (h : SetupInv s → ∀ r, sc = some r → SceneInv r) :
    InvKeep s (setSlot n sc s) where
  setup inv := by
    refine ⟨inv.next, inv.live, inv.sceneCut, fun m r e => ?_, inv.protect⟩
    by_cases same : m = n
    · subst same
      exact h inv r (by simpa [State.slot, setSlot] using e)
    · refine inv.slots m r ?_
      simpa [State.slot, setSlot, Vector.getElem_set, Fin.val_inj, Ne.symm same] using e

end Sys2Proof.Machine
end

section
/-!
SUPPORT. What every command keeps of the invariants (continued): lever values, pending actions, recalls and
resets, and the theorem over every command.
-/

namespace Sys2Proof.Machine

/-! ### Levers (chapter 5) -/

theorem leverValue_le (f : LeverFormat) (field : Half) : leverValue f field ≤ 1023 := by
  have := field.isLt
  cases f <;> simp only [leverValue] <;> omega

theorem withValue_inv (l : Lever) {v : Nat} (h : v ≤ 1023) : LeverInv (l.withValue v) := ⟨h, rfl⟩

/-- A lever that is stored may wait only where a WAITING port can be (R86, R89). -/
theorem setLever_transitionInv {s : State} (h : TransitionInv s) (p : Port) {l : Lever} (inv : LeverInv l)
    (pickup : l.pickup = .waiting → s.tc.mode = .manual ∧ s.lu.holder = none) :
    TransitionInv (s.setLever p l) where
  idle := h.idle
  idlePos := h.idlePos
  pos := h.pos
  flight := h.flight
  noMain := h.noMain
  deferrals := h.deferrals
  keyCuts := h.keyCuts
  sceneCut := h.sceneCut
  autoHold := h.autoHold
  noHold := h.noHold
  quiet := h.quiet
  levers q := by
    by_cases e : q = p
    · subst e
      simpa using inv
    · simpa [e] using h.levers q
  waiting q := by
    by_cases e : q = p
    · subst e
      simpa using pickup
    · simpa [e] using h.waiting q

theorem setLever_invKeep {s : State} {p : Port} {l : Lever} (inv : LeverInv l)
    (pickup : l.pickup = .waiting → (s.lever p).pickup = .waiting) : InvKeep s (s.setLever p l) where
  setup h := h.congr rfl rfl rfl rfl rfl
  transition h := setLever_transitionInv h p inv fun e => h.waiting p (pickup e)

/-- A hold begins outside AUTO, where no port is WAITING (R83, R89). -/
theorem holdLever_transitionInv {s : State} (h : TransitionInv s) (p : Port) (mode : s.tc.mode ≠ .auto)
    (none : ∀ q, (s.lu.levers.get q).pickup ≠ .waiting) : TransitionInv (holdLever p s) :=
  { h with
    autoHold := fun e => absurd e mode
    noHold := nofun
    quiet := Nat.zero_le _
    waiting := fun q e => absurd e (none q) }

theorem releaseHold_invKeep (s : State) : InvKeep s (releaseHold s) where
  setup h := h.congr rfl rfl rfl rfl rfl
  transition h := { h with
    deferrals := ⟨h.deferrals.1, Nat.zero_le _⟩
    autoHold := fun _ => rfl
    noHold := fun _ => ⟨rfl, rfl⟩
    quiet := Nat.zero_le _
    waiting := fun q e => ⟨(h.waiting q e).1, rfl⟩ }

theorem clearQuiet_invKeep (s : State) : InvKeep s (clearQuiet s) where
  setup h := h.congr rfl rfl rfl rfl rfl
  transition h := { h with
    noHold := fun e => ⟨rfl, (h.noHold e).2⟩
    quiet := Nat.zero_le _ }

theorem clearPickups_get (pick : Port → Bool) (s : State) (q : Port) :
    (clearPickups pick s).lu.levers.get q =
      if pick q then { s.lever q with pickup := .none } else s.lever q := by
  simp [clearPickups]

theorem clearPickups_invKeep (pick : Port → Bool) (s : State) : InvKeep s (clearPickups pick s) where
  setup h := h.congr rfl rfl rfl rfl rfl
  transition h := { h with
    levers := fun q => by
      rw [clearPickups_get]
      split
      · exact ⟨(h.levers q).value, (h.levers q).pos⟩
      · exact h.levers q
    waiting := fun q e => by
      rw [clearPickups_get] at e
      split at e
      · cases e
      · exact h.waiting q e }

/-- A value of a port with no pickup pending outside MANUAL is taken (R85). -/
theorem idleValue_invKeep {s : State} (p : Port) {v : Nat} (h : v ≤ 1023) (idle : s.tc.mode = .idle) :
    InvKeep s (idleValue p v s).state := by
  unfold idleValue
  split
  · exact setLever_invKeep ⟨h, rfl⟩ id
  · have stored : InvKeep s (s.setLever p ((s.lever p).withValue v)) :=
      setLever_invKeep (withValue_inv _ h) id
    refine stored.trans ⟨fun h => h.congr rfl rfl rfl rfl rfl, fun h => ?_, id, id⟩
    refine holdLever_transitionInv h p (by simp [idle]) fun q e => ?_
    have := h.waiting q e
    simp [idle] at this

/-- The port that picks the lever up becomes the holder, and every WAITING port loses its pickup (R89). -/
theorem pickUp_transitionInv {s : State} (h : TransitionInv s) (p : Port) (mode : s.tc.mode ≠ .auto)
    (mine : (s.lu.levers.get p).pickup = .none) : TransitionInv (losePickups (some p) (holdLever p s)) := by
  have cleared := (clearPickups_invKeep (fun q => isWaiting s q && some p != some q) s).transition h
  refine (holdLever_transitionInv cleared p mode fun q e => ?_).congr rfl rfl
  rw [clearPickups_get] at e
  split at e
  · cases e
  · next spared =>
    by_cases same : p = q
    · subst same
      simp [mine] at e
    · have waits : isWaiting s q = true := decide_eq_true e
      simp [waits, same] at spared

/-- A value in MANUAL picks the lever up, or its port waits (R86). -/
theorem manualValue_invKeep {s : State} (p : Port) {v : Nat} (h : v ≤ 1023) (manual : s.tc.mode = .manual)
    (free : s.lu.holder = none) : InvKeep s (manualValue p v s).state := by
  unfold manualValue
  refine ite_keeps (fun _ => ⟨fun h => h.congr rfl rfl rfl rfl rfl, fun inv => ?_, id, id⟩) fun _ =>
    ⟨fun h => h.congr rfl rfl rfl rfl rfl,
      fun inv => setLever_transitionInv inv p ⟨h, rfl⟩ fun _ => ⟨manual, free⟩, id, id⟩
  exact pickUp_transitionInv (setLever_transitionInv inv p ⟨h, rfl⟩ (by simp)) p (by simp [manual]) (by simp)

theorem dealLeverValue_invKeep (field : Half) (p : Port) (s : State) :
    InvKeep s (dealLeverValue field p s).state := by
  have value := leverValue_le (s.port p).format field
  have held : InvKeep s (holderValue p (leverValue (s.port p).format field) s).state :=
    (setLever_invKeep (s := s) (p := p) (withValue_inv _ value) id).trans (clearQuiet_invKeep _)
  refine checked_keeps (.refl s) fun _ => ?_
  dsimp only
  split
  · exact .refl s
  · next idle free => exact idleValue_invKeep p value idle
  · next manual free => exact manualValue_invKeep p value manual free
  · exact ite_keeps (fun _ => held) fun _ => .refl s
  · exact ite_keeps (fun _ => held) fun _ => .refl s

/-! ### Pending actions and recalls (R62 to R64, R160, R161) -/

theorem foldl_invKeep {α : Type} {f : State → α → State} (h : ∀ s a, InvKeep s (f s a)) (l : List α)
    (s : State) : InvKeep s (l.foldl f s) := by
  induction l generalizing s with
  | nil => exact .refl s
  | cons a l ih => exact (h s a).trans (ih _)

/-- A main action left pending keeps the controller's invariant: its count starts at 0 or stays. -/
theorem pendMain_invKeep {s : State} {m : MainAction} {issuing : PerPort Bool} {n : Nat} (pending : m ≠ .none)
    (few : s.tc.mainDeferrals ≤ 4 → n ≤ 4) :
    InvKeep s (mapTc (fun t => { t with main := m, issuing := issuing, mainDeferrals := n }) s) where
  setup h := h.congr rfl rfl rfl rfl rfl
  transition h := { h with
    noMain := fun e => absurd e pending
    deferrals := ⟨few h.deferrals.1, h.deferrals.2⟩ }

theorem dealCut_invKeep (p : Port) (s : State) : InvKeep s (dealCut p s).state := by
  refine checked_keeps (.refl s) fun _ => ?_
  dsimp only [taken]
  split
  · exact pendMain_invKeep (by simp) fun _ => Nat.zero_le 4
  · exact pendMain_invKeep (m := .cut) (by simp) id
  · next cut => exact pendMain_invKeep (m := s.tc.main) (by simp [cut]) id

theorem dealAuto_invKeep (p : Port) (s : State) : InvKeep s (dealAuto p s).state := by
  refine checked_keeps (.refl s) fun _ => ?_
  split
  · exact .refl s
  · exact .refl s
  · next auto _ => exact pendMain_invKeep (m := s.tc.main) (by simp [auto]) id
  · exact pendMain_invKeep (by simp) fun _ => Nat.zero_le 4

theorem setKeyCut_transitionInv {s : State} (h : TransitionInv s) (k : Keyer) {kc : Option KeyCut}
    (few : ∀ c, kc = some c → c.deferrals ≤ 4) : TransitionInv (mapTc (setKeyCut k kc) s) :=
  { h with
    keyCuts := fun l c e => by
      by_cases same : l = k
      · subst same
        exact few c (by simpa [mapTc, setKeyCut] using e)
      · exact h.keyCuts l c (by simpa [mapTc, setKeyCut, same] using e) }

theorem keyCutDeferrals_le {s : State} (h : TransitionInv s) (k : Keyer) :
    keyCutDeferrals (s.tc.keyCuts.get k) ≤ 4 := by
  unfold keyCutDeferrals
  split
  · next c pending => exact h.keyCuts k c pending
  · exact Nat.zero_le 4

theorem dealKeyCut_invKeep (keyer target : Byte) (p : Port) (s : State) :
    InvKeep s (dealKeyCut keyer target p s).state := by
  refine checked_keeps (.refl s) fun _ => ?_
  split
  · next k on _ _ =>
    refine ite_keeps (fun _ => .refl s) fun _ => unlessSame_keeps (.refl s) ?_
    refine ⟨fun h => h.congr rfl rfl rfl rfl rfl, fun h => ?_, id, id⟩
    refine setKeyCut_transitionInv h k fun c e => ?_
    cases e
    exact keyCutDeferrals_le h k
  · exact .refl s

/-- A scene cut is left pending in IDLE alone, with its edges on the raster (R160). -/
theorem setSceneCut_invKeep {s : State} {c : SceneCut} (idle : s.tc.mode = .idle) (few : c.deferrals ≤ 4)
    (keyers : ∀ k, KeyerInv (activeWidth s.rtg.raster) (activeHeight s.rtg.raster) (c.keyers.get k)) :
    InvKeep s { s with tc := { s.tc with sceneCut := some c } } where
  setup h := ⟨h.next, h.live, fun d e => Option.some.inj e ▸ keyers, h.slots, h.protect⟩
  transition h := { h with sceneCut := fun d e => Option.some.inj e ▸ ⟨idle, few⟩ }

theorem recallSources_invKeep (k : Keyer) (sk : SceneKeyer) (s : State) : InvKeep s (recallSources k sk s) :=
  (request_invKeep _ _ s).trans (request_invKeep _ _ _)

theorem recallTrans_invKeep {t : SceneTrans} {sel : LayerSet} (rate : t.rate ≤ 999) (wipe : WipeInv t.wipe)
    (nonEmpty : sel.nonEmpty = true) (s : State) : InvKeep s (recallTrans t sel s) :=
  (mapNext_invKeep (f := fun n => { n with selection := sel, type := t.type, rate := t.rate }) fun inv =>
    { inv with selection := nonEmpty, rate := rate }).trans (writeWipe_invKeep wipe _)

theorem recallOrder_invKeep {o : Option KeyOrder} (h : ∀ k, o = some k → k.toList.Nodup) (s : State) :
    InvKeep s (recallOrder o s) := by
  cases o with
  | none => exact .refl s
  | some o =>
    exact mapNext_invKeep (f := fun n => { n with order := o }) fun inv => { inv with order := h o rfl }

theorem sceneCutOf_keyers (r : Raster) {keys : PerKeyer SceneKeyer}
    (h : ∀ k, KeyerInv 3840 2160 (keys.get k).setup) (bg : Bool) (k : Keyer) :
    KeyerInv (activeWidth r) (activeHeight r) ((sceneCutOf r keys bg).keyers.get k) := by
  simpa [sceneCutOf] using clampCrop_inv (h k) r

theorem recallKeysDirect_invKeep {keys : PerKeyer SceneKeyer}
    (h : ∀ k, KeyerInv 3840 2160 (keys.get k).setup) (bg : Bool) {s : State} (idle : s.tc.mode = .idle) :
    InvKeep s
      (let s := Keyer.all.foldl (fun s k => recallSources k (keys.get k) s) s
      { s with tc := { s.tc with sceneCut := some (sceneCutOf s.rtg.raster keys bg) } }) := by
  have sources := foldl_same (fun s k => recallSources k (keys.get k) s)
    (fun s k => recallSources_same k _ s) Keyer.all s
  obtain ⟨mode, -⟩ := sources.controller
  exact (foldl_invKeep (fun s k => recallSources_invKeep k (keys.get k) s) Keyer.all s).trans
    (setSceneCut_invKeep (mode.trans idle) (Nat.zero_le 4) (sceneCutOf_keyers _ h bg))

theorem recallDirect_invKeep {sc : Scene} (inv : SceneInv sc) {s : State} (idle : s.tc.mode = .idle) :
    InvKeep s (recallDirect sc s) := by
  unfold recallDirect
  refine .trans ?_ (recallOrder_invKeep inv.order _)
  refine .trans (t := ?_) ?_ ?_
  rotate_left 2
  · split
    · next t trans =>
      obtain ⟨selection, rate, wipe⟩ := inv.trans t trans
      exact recallTrans_invKeep rate wipe selection _
    · exact .refl _
  · refine .trans (t := ?_) ?_ ?_
    rotate_left 2
    · split
      · next keys present =>
        refine recallKeysDirect_invKeep (inv.keys keys present) _ ?_
        split <;> exact idle
      · exact .refl _
    · split
      · exact (request_invKeep _ _ _).trans (request_invKeep _ _ _)
      · exact .refl _

theorem derivedSelection_nonEmpty (sc : Scene) (s : State) : (derivedSelection sc s).nonEmpty = true := by
  unfold derivedSelection
  dsimp only
  split_ifs with h
  · exact h
  · rfl

theorem recallOffAir_invKeep {keys : PerKeyer SceneKeyer} (h : ∀ k, KeyerInv 3840 2160 (keys.get k).setup)
    (s : State) (k : Keyer) : InvKeep s (recallOffAir keys s k) := by
  unfold recallOffAir
  split
  · exact .refl s
  · exact (recallSources_invKeep k _ s).trans
      (mapNext_invKeep fun inv => setKeyer_inv inv (clampCrop_inv (h k) _))

theorem recallPreview_invKeep {sc : Scene} (inv : SceneInv sc) (s : State) : InvKeep s (recallPreview sc s) := by
  unfold recallPreview
  refine .trans ?_ (recallOrder_invKeep inv.order _)
  refine .trans (t := ?_) ?_ ?_
  rotate_left 2
  · split
    · next t trans =>
      obtain ⟨-, rate, wipe⟩ := inv.trans t trans
      exact recallTrans_invKeep rate wipe (derivedSelection_nonEmpty sc s) _
    · exact .refl _
  · refine .trans (t := ?_) ?_ ?_
    rotate_left 2
    · split
      · next keys present => exact foldl_invKeep (recallOffAir_invKeep (inv.keys keys present)) _ _
      · exact .refl _
    · split
      · exact request_invKeep _ _ _
      · exact .refl _

theorem recordAt_inv {s : State} (h : SetupInv s) {slot : Byte} {sc : Scene} (e : recordAt s slot = some sc) :
    SceneInv sc := by
  obtain ⟨n, -, stored⟩ := Option.bind_eq_some_iff.1 e
  exact h.slots n sc stored

/-- Each of the twelve commands that a cue can embed keeps the invariants. -/
theorem dealCueCommand_invKeep (c : CueCommand) (p : Port) {s : State} (inv : SetupInv s) :
    InvKeep s (dealCueCommand c p s).state := by
  have same : InvKeep s s := .refl s
  have written : ∀ {b t}, InvKeep s t → InvKeep s (unlessSame b t s).state := unlessSame_keeps same
  cases c with
  | cut => exact dealCut_invKeep p s
  | auto => exact dealAuto_invKeep p s
  | keyCut k t => exact dealKeyCut_invKeep k t p s
  | selectBus bus src =>
    refine checked_keeps same fun _ => ?_
    split
    · exact ite_keeps (fun _ => same) fun _ => written (request_invKeep _ _ s)
    · exact same
  | setNext layers type =>
    refine checked_keeps same fun _ => ?_
    split
    · next selection _ =>
      exact written (mapNext_invKeep fun inv => { inv with selection := selectionOf_nonEmpty selection })
    · exact same
  | setRate rate =>
    refine checked_keeps same fun _ => ite_keeps (fun _ => ?_) fun fits => ?_
    · exact mapNext_invKeep (f := fun n => { n with rate := 999 }) fun inv => { inv with rate := le_refl 999 }
    · exact written (mapNext_invKeep fun inv => { inv with rate := Nat.le_of_not_lt fits })
  | keySetup k f clip gain opacity =>
    refine checked_keeps same fun inRange => ?_
    simp only [keySetupInRange, Bool.and_eq_true, decide_eq_true_eq] at inRange
    obtain ⟨⟨-, hclip⟩, hgain⟩ := inRange
    split
    · next k _ =>
      have keyer : InvKeep s (mapNext (setKeyer k { s.mes.next.keyers.get k with
          type := keyTypeOf (f.getLsbD 0), invert := f.getLsbD 1
          clip := clip.toNat, gain := gain.toNat, opacity := min opacity.toNat 4096 }) s) :=
        mapNext_invKeep fun inv => setKeyer_inv inv { inv.keyers k with
          clip := hclip, gain := hgain, opacity := Nat.min_le_right _ _ }
      exact ite_keeps (fun _ => keyer) fun _ => written keyer
    · exact same
  | keyCrop k e left right top bottom =>
    refine checked_keeps same fun _ => ?_
    split
    · next k on _ _ =>
      have crop := fun inv : CopyInv s.rtg.raster s.mes.next =>
        clampCrop_inv (k := { s.mes.next.keyers.get k with
          crop := on, left := left.toNat, right := right.toNat, top := top.toNat, bottom := bottom.toNat })
          (w := max left.toNat right.toNat) (h := max top.toNat bottom.toNat)
          { inv.keyers k with
            left := le_max_left _ _, right := le_max_right _ _
            top := le_max_left _ _, bottom := le_max_right _ _ } s.rtg.raster
      have keyer := mapNext_invKeep fun inv => setKeyer_inv inv (k := k) (crop inv)
      exact ite_keeps (fun _ => keyer) fun _ => written keyer
    · exact same
  | keyOrder a b c d =>
    refine checked_keeps same fun _ => ?_
    split
    · next order => exact written (mapNext_invKeep fun inv => { inv with order := orderOf_nodup order })
    · exact same
  | wipeSetup pat e rh rv x y f =>
    refine checked_keeps same fun _ => ?_
    split
    · next wipe => exact written (writeWipe_invKeep (wipeOf_inv wipe) s)
    · exact same
  | matteSet m y cb cr =>
    refine checked_keeps same fun _ => ?_
    dsimp only [taken]
    split
    · exact mapNext_invKeep fun inv => { inv with }
    · exact mapNext_invKeep fun inv => { inv with }
  | sceneRecall slot mode =>
    refine checked_keeps same fun _ => ?_
    split
    · next sc found =>
      have scene := recordAt_inv inv found
      refine ite_keeps (fun _ => same) fun idle => ?_
      dsimp only [taken]
      split
      · exact recallDirect_invKeep scene (not_not.1 idle)
      · exact recallPreview_invKeep scene s
    · exact same

/-! ### Every command -/

theorem setEntries_invKeep {s : State} {es : List CueEntry} (sub : es.Sublist s.cq.entries) :
    InvKeep s (setEntries es s) where
  setup h := h.congr rfl rfl rfl rfl rfl
  transition h := h.congr rfl rfl
  cues h := h.sublist sub

theorem dealCue_invKeep (target : Word) (code : Byte) (args : List Byte) (p : Port) (s : State) :
    InvKeep s (dealCue target code args p s).state := by
  unfold dealCue
  dsimp only
  split
  · exact .refl s
  · next c parsed =>
    refine checked_keeps (.refl s) fun inRange => ite_keeps (fun _ => .refl s) fun room =>
      ite_keeps (fun _ => .refl s) fun late => ?_
    simp only [tooFar, Bool.and_eq_true, Bool.not_eq_true', Bool.and_eq_false_iff, decide_eq_false_iff_not]
      at inRange
    simp only [tooLate, Bool.or_eq_true, decide_eq_true_eq, not_or, not_lt] at late
    obtain ⟨-, near⟩ := inRange
    obtain ⟨ahead, early⟩ := late
    refine ⟨fun h => h.congr rfl rfl rfl rfl rfl, fun h => h.congr rfl rfl, fun h => ?_, id⟩
    refine h.inserted (e := ⟨nextFreeTag s.cq, p, target, code, args⟩) (Nat.lt_of_not_le room) rfl ?_
      (by simp [parsed])
    dsimp only
    omega

theorem portResetWork_invKeep (p : Port) (s : State) : InvKeep s (portResetWork p s) := by
  have lever : InvKeep s (leverPortReset p (mapPort p resetPort s)) := by
    refine .trans (t := mapPort p resetPort s) {} (.trans ?_ (setLever_invKeep ⟨Nat.zero_le _, by decide⟩ nofun))
    split
    · exact releaseHold_invKeep _
    · exact .refl _
  have cues : InvKeep s (cuesPortReset p (leverPortReset p (mapPort p resetPort s))) :=
    lever.trans ⟨fun h => h.congr rfl rfl rfl rfl rfl, fun h => h.congr rfl rfl,
      fun h => (h.sublist List.filter_sublist).forgotten p, id⟩
  refine cues.trans (.trans (t := setChanges p ⟨[], true⟩ _) ?_ (freeLocks_invKeep p _ _))
  refine ⟨fun h => h.congr rfl rfl rfl rfl rfl, fun h => h.congr rfl rfl, id, fun h => ⟨h.layers, fun q => ?_⟩⟩
  by_cases e : q = p
  · subst e
    simp [setChanges]
  · simpa [setChanges, e] using h.lists q

theorem tcEngineReset_transitionInv {s : State} (h : TransitionInv s) : TransitionInv (mapTc tcEngineReset s) where
  idle := h.idle
  idlePos := h.idlePos
  pos := h.pos
  flight := h.flight
  noMain _ := ⟨rfl, rfl⟩
  deferrals := ⟨Nat.zero_le 4, Nat.zero_le 4⟩
  keyCuts k c e := by simp [mapTc, tcEngineReset] at e
  sceneCut c e := by simp [mapTc, tcEngineReset] at e
  autoHold := h.autoHold
  noHold e := ⟨(h.noHold e).1, rfl⟩
  quiet := h.quiet
  levers := h.levers
  waiting := h.waiting

theorem armReset_invKeep (s : State) : InvKeep s (mapTc tcEngineReset s) where
  setup h := ⟨h.next, h.live, fun c e => by simp [mapTc, tcEngineReset] at e, h.slots, h.protect⟩
  transition := tcEngineReset_transitionInv

theorem dropCues_invKeep (keep : CueEntry → Bool) (s : State) : InvKeep s (dropCues keep s) :=
  (setEntries_invKeep List.filter_sublist).trans (raiseEach_invKeep .cueDrop _ _)

theorem freeAllLocks_invKeep (s : State) : InvKeep s (freeAllLocks s) :=
  (setLocks_invKeep _ s).trans (raiseAllWhen_invKeep _ .locks _)

theorem engineResetWork_invKeep (p : Port) (s : State) : InvKeep s (engineResetWork p s) := by
  have inputs : InvKeep s (inputsEngineReset s) := {}
  have setups : InvKeep s (setupEngineReset (inputsEngineReset s)) :=
    (inputs.trans (mapNext_invKeep fun _ => defaultSetup_inv _)).trans (markReload_invKeep _)
  have locks := setups.trans (freeAllLocks_invKeep _)
  exact (((locks.trans (armReset_invKeep _)).trans (raiseEach_invKeep .leverLost _ _)).trans
    ((clearPickups_invKeep _ _).trans (releaseHold_invKeep _))).trans (dropCues_invKeep _ _)

/-- Every command keeps the invariants. -/
theorem Commanded.invKeep {p : Port} {s : State} {a : Answer} (h : Commanded p s a) (inv : SetupInv s) :
    InvKeep s a.state := by
  have same : InvKeep s s := .refl s
  have written : ∀ {b t}, InvKeep s t → InvKeep s (unlessSame b t s).state := unlessSame_keeps same
  cases h with
  | illegal | stateRead | timingRead | cueList => exact same
  | clipRead => exact {}
  | tallyChanges =>
    refine ⟨fun h => h.congr rfl rfl rfl rfl rfl, fun h => h.congr rfl rfl, id, fun h => ⟨h.layers, fun q => ?_⟩⟩
    by_cases e : q = p
    · subst e
      simp [dealTallyChanges, answered, setChanges]
    · simpa [dealTallyChanges, answered, setChanges, e] using h.lists q
  | inputRead input =>
    unfold dealInputRead
    split <;> exact same
  | tallyRead => exact ite_keeps (fun _ => same) fun _ => same
  | sceneRead slot =>
    unfold dealSceneRead
    split
    · split <;> exact same
    · exact same
  | noticeRead => exact setPort_invKeep s p _
  | cueCommand c => exact dealCueCommand_invKeep c p inv
  | limiterSetup yLo yHi cLo cHi =>
    refine checked_keeps same fun inRange => written (mapNext_invKeep fun inv => ?_)
    simp only [limiterInRange, Bool.and_eq_true, decide_eq_true_eq] at inRange
    obtain ⟨⟨⟨hy, hc⟩, y⟩, c⟩ := inRange
    exact { inv with limiter := ⟨⟨y, hy⟩, ⟨c, hc⟩⟩ }
  | lock mask =>
    exact checked_keeps same fun _ => ite_keeps (fun _ => same) fun _ =>
      (setLocks_invKeep _ s).trans (raiseAll_invKeep .locks _)
  | unlock mask =>
    exact checked_keeps same fun _ => ite_keeps (fun _ => freeLocks_invKeep p _ s) fun _ => same
  | lever value mode =>
    exact ite_keeps (fun _ => (dealLeverValue_invKeep value p s).trans (setPort_invKeep _ p _)) fun _ =>
      dealLeverValue_invKeep value p s
  | leverRelease => exact ite_keeps (fun _ => releaseHold_invKeep s) fun _ => same
  | cue target code args => exact dealCue_invKeep target code args p s
  | cueCancel tag =>
    refine ite_keeps (fun _ => setEntries_invKeep List.filter_sublist) fun _ => ?_
    split
    · exact same
    · exact ite_keeps (fun _ => same) fun _ => setEntries_invKeep (List.eraseP_sublist)
  | sceneSave slot mask =>
    refine slotChecked_keeps same fun inRange => ?_
    simp only [groupMaskInRange, Bool.and_eq_true, decide_eq_true_eq] at inRange
    obtain ⟨-, low, high⟩ := inRange
    split
    · exact setSlot_invKeep fun inv r e => Option.some.inj e ▸ savedScene_inv inv low high
    · exact same
  | sceneLoad slot mask parts =>
    refine slotChecked_keeps same fun _ => ?_
    split
    · next spelled => exact setSlot_invKeep fun _ r e => Option.some.inj e ▸ sceneOf_inv spelled
    · exact same
  | sceneErase slot =>
    refine slotChecked_keeps same fun _ => ?_
    split
    · exact written (setSlot_invKeep fun _ r e => by cases e)
    · exact same
  | sceneProtect count =>
    refine checked_keeps same fun inRange => written ?_
    exact ⟨fun h => ⟨h.next, h.live, h.sceneCut, h.slots, of_decide_eq_true inRange⟩,
      fun h => h.congr rfl rfl, id, id⟩
  | timingSetup raster enable =>
    refine checked_keeps same fun _ => ?_
    split
    · exact ite_keeps (fun _ => same) fun _ => ite_keeps (fun _ => same) fun _ =>
        ite_keeps (fun _ => {}) fun _ => {}
    · exact same
  | setFrameCount value =>
    refine checked_keeps same fun _ => ?_
    refine .trans (t := setEntries (s.cq.entries.filter (staysQueued value)) (setCounter value s)) ?_
      (raiseEach_invKeep .cueDrop _ _)
    refine ⟨fun h => h.congr rfl rfl rfl rfl rfl, fun h => h.congr rfl rfl, fun h => ?_, id⟩
    refine h.recounted List.filter_sublist fun e he => ?_
    obtain ⟨-, stays⟩ := List.mem_filter.1 he
    simp only [staysQueued, Bool.and_eq_true, decide_eq_true_eq] at stays
    exact stays
  | alignSetup => exact checked_keeps same fun _ => written {}
  | portSetup format quiet =>
    unfold dealPortSetup
    split
    · exact same
    · exact ite_keeps (fun _ => same) fun _ => written (setPort_invKeep s p _)
  | noticeMask mask => exact ite_keeps (fun _ => same) fun _ => written (setPort_invKeep s p _)
  | portReset => exact portResetWork_invKeep p s
  | engineReset => exact checked_keeps same fun _ => engineResetWork_invKeep p s

theorem Dealt.invKeep {p : Port} {s : State} {a : Answer} (h : Dealt p s a) (inv : SetupInv s) :
    InvKeep s a.state := by
  cases h with
  | command h => exact h.invKeep inv
  | stream value mode =>
    exact ite_keeps (fun _ => dealLeverValue_invKeep value p s) fun _ =>
      (dealLeverValue_invKeep value p s).trans (setPort_invKeep _ p _)

end Sys2Proof.Machine
end

section
/-!
SUPPORT. The controller and the lever through the stages of a frame take (chapters 4 and 5): each stage keeps
their invariant, under live setups in range.
-/

namespace Sys2Proof.Machine

/-! ### Positions (R72, R73) -/

/-- An auto transition stays below its end before its last frame (R73). -/
theorem autoPosition_lt {p0 r k : Nat} (start : p0 ≤ 4095) (before : k < r) : autoPosition p0 r k < 4096 := by
  have left : (4096 - p0) * k / r < 4096 - p0 := by
    rw [Nat.div_lt_iff_lt_mul (Nat.zero_lt_of_lt before)]
    exact Nat.mul_lt_mul_of_pos_left before (by omega)
  unfold autoPosition
  omega

theorem autoPosition_zero (p0 r : Nat) : autoPosition p0 r 0 = p0 := by simp [autoPosition]

/-- A takeover takes at least one frame and at most as many as the rate (R72). -/
theorem takeoverFrames_range {p0 rate : Nat} (start : p0 ≤ 4095) (some : rate ≠ 0) :
    0 < takeoverFrames p0 rate ∧ takeoverFrames p0 rate ≤ rate := by
  have low : 1 ≤ (4096 - p0) * rate := Nat.mul_pos (by omega) (Nat.pos_of_ne_zero some)
  have high : (4096 - p0) * rate ≤ 4096 * rate := Nat.mul_le_mul_right rate (Nat.sub_le _ _)
  unfold takeoverFrames ceilDiv
  omega

/-! ### Operations shared by the stages -/

/-- No port is WAITING for the lever. -/
def NoneWaiting (s : State) : Prop := ∀ q, (s.lu.levers.get q).pickup ≠ .waiting

theorem TransitionInv.noneWaiting {s : State} (h : TransitionInv s) (mode : s.tc.mode ≠ .manual) :
    NoneWaiting s := fun q e => mode (h.waiting q e).1

theorem releaseHoldUnless_transitionInv (exempt : Port → Bool) {s : State} (h : TransitionInv s) :
    TransitionInv (releaseHoldUnless exempt s) := by
  rcases releaseHoldUnless_cases exempt s with ⟨-, e⟩ | ⟨p, -, e⟩ <;> rw [e]
  · exact h
  · refine (releaseHold_invKeep _).transition ?_
    split
    · exact h
    · exact h.congr rfl rfl

theorem releaseHoldUnless_holder (exempt : Port → Bool) (s : State) :
    (releaseHoldUnless exempt s).lu.holder = none := by
  rcases releaseHoldUnless_cases exempt s with ⟨e, same⟩ | ⟨p, -, e⟩
  · rw [same, e]
  · rw [e]
    rfl

/-- The quiet count of a holder stays below its port's quiet limit (R90). -/
theorem quietStep_transitionInv {s : State} (h : TransitionInv s) (limits : ∀ p, (s.ports.get p).quietLimit ≤ 255) :
    TransitionInv (quietStep s) := by
  rcases quietStep_cases s with ⟨-, e⟩ | ⟨p, held, ⟨below, e⟩ | ⟨-, e⟩⟩ <;> rw [e]
  · exact h
  · refine { h with noHold := fun free => ?_, quiet := ?_ }
    · simp [held] at free
    · exact (Nat.le_of_lt below).trans (limits p)
  · exact (releaseHold_invKeep _).transition (h.congr rfl rfl)

theorem mainPerformed_transitionInv {s : State} (h : TransitionInv s) :
    TransitionInv (clearMain (releaseForMain s)) :=
  { releaseHoldUnless_transitionInv s.tc.issuing.get h with
    noMain := fun _ => ⟨rfl, rfl⟩
    deferrals := ⟨Nat.zero_le 4, (releaseHoldUnless_transitionInv s.tc.issuing.get h).deferrals.2⟩ }

theorem mainPerformed_holder (s : State) : (clearMain (releaseForMain s)).lu.holder = none :=
  releaseHoldUnless_holder s.tc.issuing.get s

theorem mainPerformed_mode (s : State) : (clearMain (releaseForMain s)).tc.mode = s.tc.mode := by
  rw [clearMain_releaseForMain]
  rfl

theorem mainPerformed_pos (s : State) : (clearMain (releaseForMain s)).tc.pos = s.tc.pos := by
  rw [clearMain_releaseForMain]
  rfl

theorem mainPerformed_sceneCut (s : State) : (clearMain (releaseForMain s)).tc.sceneCut = s.tc.sceneCut := by
  rw [clearMain_releaseForMain]
  rfl

theorem mainPerformed_inFlight (s : State) : (clearMain (releaseForMain s)).tc.inFlight = s.tc.inFlight := by
  rw [clearMain_releaseForMain]
  rfl

theorem leaveManual_transitionInv {s : State} (h : TransitionInv s) :
    TransitionInv (leaveManual s) ∧ NoneWaiting (leaveManual s) := by
  unfold leaveManual
  split
  · refine ⟨((clearPickups_invKeep (fun q => isWaiting s q && none != some q) _).transition h).congr rfl rfl,
      fun q e => ?_⟩
    have shown := clearPickups_get (fun q => isWaiting s q && none != some q) s q
    rw [show (losePickups none s).lu.levers.get q = _ from shown] at e
    split at e
    · cases e
    · next spared =>
      have waits : isWaiting s q = true := decide_eq_true e
      simp [waits] at spared
  · next idle => exact ⟨h, h.noneWaiting (by simp [idle])⟩
  · next auto => exact ⟨h, h.noneWaiting (by simp [auto])⟩

theorem toIdle_transitionInv {s : State} (h : TransitionInv s) : TransitionInv (toIdle s) ∧ NoneWaiting (toIdle s) := by
  obtain ⟨left, none⟩ := leaveManual_transitionInv h
  exact ⟨{ left with
    idle := iff_of_true rfl rfl
    idlePos := fun _ => rfl
    pos := Nat.zero_le _
    flight := nofun
    sceneCut := fun c e => ⟨rfl, (left.sceneCut c e).2⟩
    autoHold := nofun
    waiting := fun q e => absurd e (none q) }, none⟩

/-- A change of the role and the on-air flags alone. -/
theorem setAir_transitionInv {s : State} (h : TransitionInv s) (role : Role) (onAir : PerKeyer Bool)
    (resetPending : Bool) :
    TransitionInv { s with tc := { s.tc with role := role, onAir := onAir, resetPending := resetPending } } :=
  { h with }

theorem applyEngineReset_transitionInv {s : State} (h : TransitionInv s) : TransitionInv (applyEngineReset s) := by
  unfold applyEngineReset
  split
  · exact setAir_transitionInv (toIdle_transitionInv h).1 _ _ _
  · exact h

theorem flipHome_invKeep (s : State) : InvKeep s (flipHome s) := by
  unfold flipHome
  split
  · exact .refl s
  · next p _ =>
    exact ⟨fun h => h.congr rfl rfl rfl rfl rfl,
      fun h => setLever_transitionInv h p ⟨(h.levers p).value, rfl⟩ (h.waiting p), id, id⟩

theorem toggleDirection_invKeep (t : Option TransType) (s : State) : InvKeep s (toggleDirection t s) := by
  unfold toggleDirection
  split
  · exact {}
  · exact .refl s

/-- Completion leaves the controller IDLE and the lever free (R76, R94). -/
theorem complete_transitionInv (c : Completing) {s : State} (h : TransitionInv s) : TransitionInv (complete c s) := by
  have idle := (toIdle_transitionInv ((toggleDirection_invKeep c.type s).transition h)).1
  refine ((releaseHold_invKeep _).transition ?_).congr rfl rfl
  have air := setAir_transitionInv idle (if c.selection.bkgd then s.tc.role.swap else s.tc.role)
    (toggleFlags c.selection (toIdle (toggleDirection c.type s)).tc.onAir)
    (toIdle (toggleDirection c.type s)).tc.resetPending
  split
  · exact (flipHome_invKeep _).transition air
  · exact air

theorem finish_transitionInv {w : StageWork} (h : TransitionInv w.state) : TransitionInv (finish w) := by
  unfold finish
  split
  · exact complete_transitionInv _ h
  · exact h

/-! ### The stages (R67 to R75) -/

theorem sceneCutStage_transitionInv {s : State} (h : TransitionInv s) : TransitionInv (sceneCutStage s) := by
  rcases sceneCutStage_cases s with ⟨-, e⟩ | ⟨c, pending, ⟨few, -, e⟩ | ⟨-, e⟩⟩ <;> rw [e]
  · exact h
  · refine { h with sceneCut := fun d e => ?_ }
    cases e
    exact ⟨(h.sceneCut c pending).1, few⟩
  · exact { h with sceneCut := fun d e => by simp [applySceneCut] at e }

theorem keyCutStage_transitionInv (k : Keyer) {s : State} (h : TransitionInv s) :
    TransitionInv (keyCutStage k s) := by
  unfold keyCutStage
  split
  · exact h
  · split_ifs with flies waits
    · exact h
    · refine setKeyCut_transitionInv h k fun d e => ?_
      cases e
      simp only [Bool.and_eq_true, decide_eq_true_eq] at waits
      exact waits.2
    · have cleared := setKeyCut_transitionInv h k (kc := none) nofun
      exact setAir_transitionInv cleared s.tc.role _ s.tc.resetPending

theorem keyCutStages_transitionInv {s : State} (h : TransitionInv s) : TransitionInv (keyCutStages s) := by
  unfold keyCutStages behindSceneCut
  split
  · exact h
  · exact keyCutStage_transitionInv .k4 (keyCutStage_transitionInv .k3 (keyCutStage_transitionInv .k2
      (keyCutStage_transitionInv .k1 h)))

theorem deferMain_transitionInv {s : State} (h : TransitionInv s) (pending : s.tc.main ≠ .none)
    (waits : startWaits s s.tc.mainDeferrals = true) : TransitionInv (deferMain s) := by
  simp only [startWaits, Bool.and_eq_true, decide_eq_true_eq] at waits
  exact { h with noMain := fun e => absurd e pending, deferrals := ⟨waits.2, h.deferrals.2⟩ }

theorem cutStage_transitionInv {s : State} (h : TransitionInv s) : TransitionInv (cutStage s).state := by
  unfold cutStage
  split
  · next cut _ =>
    split
    · next waits => exact deferMain_transitionInv h (by simp [cut]) waits
    · exact mainPerformed_transitionInv h
  · exact mainPerformed_transitionInv h
  · exact h

/-- The live setups that a start reads lie in their ranges. -/
structure LiveStart (s : State) : Prop where
  selection : s.mes.live.selection.nonEmpty = true
  rate : s.mes.live.rate ≤ 999

/-- A transition starts from IDLE, with no scene cut pending, with a record that fits it. -/
theorem start_transitionInv {s : State} (h : TransitionInv s) {mode : TcMode} {f : InFlight} (running : mode ≠ .idle)
    (unasked : NoneWaiting s) (noCut : s.tc.sceneCut = none) (fits : FlightInv mode s.tc.pos f)
    (hold : mode = .auto → s.lu.holder = none) :
    TransitionInv { s with tc := { s.tc with mode := mode, inFlight := some f } } :=
  { h with
    idle := iff_of_false running nofun
    idlePos := fun e => absurd e running
    flight := fun g e => Option.some.inj e ▸ fits
    sceneCut := fun c e => by simp [noCut] at e
    autoHold := hold
    waiting := fun q e => absurd e (unasked q) }

theorem autoStage_transitionInv {s : State} (h : TransitionInv s) (live : LiveStart s)
    (noCut : s.tc.sceneCut = none) : TransitionInv (autoStage s).state := by
  unfold autoStage
  split
  · next auto idle =>
    have performed := mainPerformed_transitionInv h
    have free := mainPerformed_holder s
    have home := (mainPerformed_pos s).trans (h.idlePos idle)
    have mode := (mainPerformed_mode s).trans idle
    have cut := (mainPerformed_sceneCut s).trans noCut
    generalize clearMain (releaseForMain s) = base at performed free home mode cut ⊢
    split_ifs with waits zero
    · exact deferMain_transitionInv h (by simp [auto]) waits
    · exact performed
    · have fits : FlightInv .auto base.tc.pos (autoRecord s) :=
        ⟨live.selection, fun _ => ⟨rfl, Nat.zero_le _, live.rate, Nat.pos_of_ne_zero zero,
          by rw [home, autoRecord, autoPosition_zero]⟩, nofun⟩
      have started := start_transitionInv performed (mode := .auto) nofun
        (performed.noneWaiting (by simp [mode])) cut fits
        fun _ => free
      exact started.congr (by simp [mapTc, home]) rfl
  · exact h

theorem takeoverStage_transitionInv {s : State} (h : TransitionInv s) (live : LiveStart s) :
    TransitionInv (takeoverStage s).state := by
  unfold takeoverStage
  split
  · next auto manual =>
    have performed := mainPerformed_transitionInv h
    have free := mainPerformed_holder s
    have stands := mainPerformed_pos s
    have cut := mainPerformed_sceneCut s
    have flies := mainPerformed_inFlight s
    generalize clearMain (releaseForMain s) = base at performed free stands cut flies ⊢
    dsimp only
    split
    · exact performed
    · next some =>
      obtain ⟨left, unasked⟩ := leaveManual_transitionInv performed
      have running : s.tc.inFlight ≠ none := fun e => by simp [h.idle.2 e] at manual
      obtain ⟨f, hf⟩ := Option.ne_none_iff_exists'.1 running
      have noCut : s.tc.sceneCut = none := by
        cases cut : s.tc.sceneCut with
        | none => rfl
        | some c => simp [(h.sceneCut c cut).1] at manual
      obtain ⟨low, high⟩ := takeoverFrames_range h.pos some
      have fits : FlightInv .auto base.tc.pos { f with
          p0 := s.tc.pos, r := takeoverFrames s.tc.pos s.mes.live.rate, k := 0, driver := .auto } :=
        ⟨(h.flight f hf).selection, fun _ => ⟨rfl, h.pos, high.trans live.rate, low,
          by rw [stands, autoPosition_zero]⟩, nofun⟩
      rw [leaveManual_eq] at left unasked ⊢
      exact (start_transitionInv left (mode := .auto) nofun unasked (cut.trans noCut) fits fun _ => free).congr
        (by simp [mapTc, flies, hf]) rfl
  · exact h

theorem mainStage_transitionInv {s : State} (h : TransitionInv s) (live : LiveStart s) :
    TransitionInv (mainStage s).state := by
  unfold mainStage
  split
  · exact h
  · next noCut =>
    split
    · exact h
    · exact cutStage_transitionInv h
    · exact takeoverStage_transitionInv h live
    · exact autoStage_transitionInv h live (by simpa using noCut)

theorem autoAdvance_transitionInv {s : State} (h : TransitionInv s) (auto : s.tc.mode = .auto) :
    TransitionInv (autoAdvance s).state := by
  unfold autoAdvance
  split
  · exact h
  · next f hf =>
    dsimp only
    split
    · next more =>
      have fits := h.flight f hf
      obtain ⟨driver, start, frames, -, -⟩ := fits.auto auto
      refine { h with
        idle := iff_of_false (by simp [mapTc, auto]) nofun
        idlePos := fun e => by simp [mapTc, auto] at e
        pos := Nat.le_of_lt_succ (autoPosition_lt start more)
        flight := fun g e => ?_ }
      cases e
      exact ⟨fits.selection, fun _ => ⟨driver, start, frames, more, rfl⟩, fun e => by simp [mapTc, auto] at e⟩
    · exact h

theorem leverAdvance_transitionInv {s : State} (h : TransitionInv s) (manual : s.tc.mode = .manual) :
    TransitionInv (leverAdvance s).state := by
  unfold leverAdvance
  split
  · exact h
  · dsimp only
    split_ifs with home complete
    · exact (releaseHold_invKeep _).transition (toIdle_transitionInv h).1
    · exact h
    · exact { h with
        idlePos := fun e => by simp [mapTc, manual] at e
        pos := Nat.le_of_lt_succ (Nat.lt_of_not_le complete)
        flight := fun f e => ⟨(h.flight f e).selection, fun e => by simp [mapTc, manual] at e,
          (h.flight f e).manual⟩ }

theorem setManualDeferrals_transitionInv {s : State} (h : TransitionInv s) {n : Nat} (few : n ≤ 4)
    (held : s.lu.holder ≠ none) : TransitionInv (setManualDeferrals n s) :=
  { h with
    deferrals := ⟨h.deferrals.1, few⟩
    noHold := fun e => absurd e held }

theorem manualStage_transitionInv {s : State} (h : TransitionInv s) (live : LiveStart s) :
    TransitionInv (manualStage s).state := by
  unfold manualStage
  split
  · next p idle held =>
    have holder : s.lu.holder ≠ none := by simp [held]
    dsimp only
    split_ifs with home behind waits
    · exact setManualDeferrals_transitionInv h (Nat.zero_le 4) holder
    · exact h
    · simp only [startWaits, Bool.and_eq_true, decide_eq_true_eq] at waits
      exact setManualDeferrals_transitionInv h waits.2 holder
    · simp only [not_or, not_not, Bool.not_eq_true, Option.isSome_eq_false_iff, Option.isNone_iff_eq_none] at behind
      obtain ⟨-, noCut⟩ := behind
      have none := h.noneWaiting (by simp [idle])
      have started : TransitionInv (mapTc (fun t => { t with
          mode := .manual, inFlight := some (manualRecord s), manualDeferrals := 0 }) s) :=
        start_transitionInv (setManualDeferrals_transitionInv h (Nat.zero_le 4) holder) (mode := .manual)
          (f := manualRecord s) nofun none noCut ⟨live.selection, nofun, fun _ => ⟨rfl, rfl, rfl, rfl⟩⟩ nofun
      unfold startManual
      dsimp only
      split
      · exact started
      · next below =>
        exact { started with
          idlePos := nofun
          pos := Nat.le_of_lt_succ (Nat.lt_of_not_le below)
          flight := fun f e => ⟨(started.flight f e).selection, nofun, (started.flight f e).manual⟩ }
  · exact h

theorem advanceStage_transitionInv {s : State} (h : TransitionInv s) (live : LiveStart s) :
    TransitionInv (advanceStage s).state := by
  unfold advanceStage
  split
  · next auto => exact autoAdvance_transitionInv h auto
  · next manual => exact leverAdvance_transitionInv h manual
  · exact manualStage_transitionInv h live

theorem StageKeeps.liveStart {s t : State} (k : StageKeeps s t) (h : LiveStart s) : LiveStart t := by
  obtain ⟨selection, rate⟩ := h
  constructor <;> simpa only [k.mes]

theorem laterStages_transitionInv {s : State} (h : TransitionInv s) (live : LiveStart s) :
    TransitionInv (laterStages s) := by
  have main := mainStage_transitionInv h live
  unfold laterStages
  dsimp only
  split
  · exact finish_transitionInv
      (advanceStage_transitionInv main ((mainStage_stageKeeps s).liveStart live))
  · exact finish_transitionInv main

end Sys2Proof.Machine
end

section
/-!
SUPPORT. Every step keeps the setups, the controller, the cues and the tally: the commands by `Commanded.invKeep`,
and the timed events here.
-/

namespace Sys2Proof.Machine

/-- The invariants of the setups, the controller and the lever, the cues and the tally. -/
structure Standing (s : State) : Prop where
  setup : SetupInv s
  transition : TransitionInv s
  cues : CueInv s.rtg.counter s.cq
  tally : TallyInv s.tu

theorem EngineInv.standing {s : State} (h : EngineInv s) : Standing s :=
  ⟨h.setup, h.transition, h.cues, h.tally⟩

theorem InvKeep.standing {s t : State} (k : InvKeep s t) (h : Standing s) : Standing t :=
  ⟨k.setup h.setup, k.transition h.transition, k.cues h.cues, k.tally h.tally⟩

theorem StageKeeps.setupInv {s t : State} (k : StageKeeps s t) (h : SetupInv s) : SetupInv t :=
  h.congr (by rw [k.rtg]) (by rw [k.mes]) (by rw [k.mes]) k.sceneCut k.ss

theorem StageKeeps.standing {s t : State} (k : StageKeeps s t) (h : Standing s) (transition : TransitionInv t) :
    Standing t :=
  ⟨k.setupInv h.setup, transition, by rw [k.rtg, k.cq]; exact h.cues, by rw [k.tu]; exact h.tally⟩

theorem SetupInv.liveStart {s : State} (h : SetupInv s) : LiveStart s := ⟨h.live.selection, h.live.rate⟩

/-! ### The frame take -/

theorem sceneCutStage_setupInv {s : State} (h : SetupInv s) : SetupInv (sceneCutStage s) := by
  rcases sceneCutStage_cases s with ⟨-, e⟩ | ⟨c, pending, ⟨-, -, e⟩ | ⟨-, e⟩⟩ <;> rw [e]
  · exact h
  · refine ⟨h.next, h.live, fun d e => ?_, h.slots, h.protect⟩
    cases e
    exact h.sceneCut c pending
  · have keyers := h.sceneCut c pending
    exact ⟨{ h.next with keyers := keyers }, { h.live with keyers := keyers },
      fun d e => by simp [applySceneCut] at e, h.slots, h.protect⟩

theorem sceneCutStage_standing {s : State} (h : Standing s) : Standing (sceneCutStage s) where
  setup := sceneCutStage_setupInv h.setup
  transition := sceneCutStage_transitionInv h.transition
  cues := by rcases sceneCutStage_cases s with ⟨-, e⟩ | ⟨c, -, ⟨-, -, e⟩ | ⟨-, e⟩⟩ <;> rw [e] <;> exact h.cues
  tally := by rcases sceneCutStage_cases s with ⟨-, e⟩ | ⟨c, -, ⟨-, -, e⟩ | ⟨-, e⟩⟩ <;> rw [e] <;> exact h.tally

theorem frameTake_transitionInv {s : State} (setup : SetupInv s) (h : TransitionInv s) :
    TransitionInv (frameTake s) := by
  have cut := sceneCutStage_setupInv ((applyEngineReset_stageKeeps s).setupInv setup)
  exact laterStages_transitionInv
    (keyCutStages_transitionInv (sceneCutStage_transitionInv (applyEngineReset_transitionInv h)))
    ((keyCutStages_stageKeeps _).setupInv cut).liveStart

theorem behindSceneCut_transitionInv {f : State → State} {s : State} (h : TransitionInv s)
    (work : s.tc.sceneCut = none → TransitionInv (f s)) : TransitionInv (behindSceneCut s f) := by
  unfold behindSceneCut
  split
  · exact h
  · next noCut => exact work (by simpa using noCut)

/-! ### The crop clamp (R40) -/

theorem clampSetup_inv {r : Raster} {st : Setup} (h : CopyInv r st) (new : Raster) :
    CopyInv new (clampSetup new st) where
  keyers k := by simpa [clampSetup] using clampCrop_inv (h.keyers k) new
  order := h.order
  selection := h.selection
  rate := h.rate
  wipe := h.wipe
  limiter := h.limiter

/-- The clamp at a raster change brings every crop edge onto the raster in force. -/
theorem clampCropsWhen_setupInv {changed : Bool} {s : State} {old : Rtg} (h : SetupInv { s with rtg := old })
    (kept : changed = false → s.rtg.raster = old.raster) : SetupInv (clampCropsWhen changed s) := by
  unfold clampCropsWhen
  split
  · refine ⟨clampSetup_inv h.next _, clampSetup_inv h.live _, fun c e k => ?_, h.slots, h.protect⟩
    obtain ⟨d, pending, rfl⟩ := Option.map_eq_some_iff.1 e
    have clamped := clampCrop_inv (h.sceneCut d pending k) s.rtg.raster
    simp only [PerKeyer.get_map]
    exact clamped
  · next same => exact h.congr (kept (by simpa using same)) rfl rfl rfl rfl

theorem clampCropsWhen_transitionInv {changed : Bool} {s : State} (h : TransitionInv s) :
    TransitionInv (clampCropsWhen changed s) := by
  unfold clampCropsWhen
  split
  · refine { h with sceneCut := fun c e => ?_ }
    obtain ⟨d, pending, rfl⟩ := Option.map_eq_some_iff.1 e
    exact h.sceneCut d pending
  · exact h

/-- The copy and the reload put the next copy in force, and the clamp puts it on the raster. -/
theorem setupSwitch_inv {changed : Bool} {s : State} {old : Rtg} (h : SetupInv { s with rtg := old })
    (kept : changed = false → s.rtg.raster = old.raster) : SetupInv (setupSwitch changed s) := by
  have copied : SetupInv { copyNextToLive s with rtg := old } := ⟨h.next, h.next, h.sceneCut, h.slots, h.protect⟩
  unfold setupSwitch
  refine clampCropsWhen_setupInv (old := old) ?_ ?_
  · exact copied.congr rfl (by simp) (by simp) (by simp) (by simp)
  · simpa [copyNextToLive] using kept

theorem setupSwitch_transitionInv {changed : Bool} {s : State} (h : TransitionInv s) :
    TransitionInv (setupSwitch changed s) :=
  clampCropsWhen_transitionInv (h.congr (by simp [copyNextToLive]) (by simp [copyNextToLive]))

/-! ### The timing generator's part -/

theorem applyTimingSetup_kept (r : Rtg) : (applyTimingSetup r).counter = r.counter
    ∧ (rasterChanges r = false → (applyTimingSetup r).raster = r.raster) := by
  unfold applyTimingSetup rasterChanges
  split
  · exact ⟨rfl, fun _ => rfl⟩
  · next ts pending =>
    dsimp only
    split
    · obtain ⟨-, -, -, raster⟩ := applyEnable_fields { r with enable := ts.enable, pendingSetup := none }
      refine ⟨?_, fun _ => raster⟩
      unfold applyEnable
      split_ifs <;> rfl
    · next other => exact ⟨rfl, fun same => absurd (by simpa [pending] using same) other⟩

/-- The counter rises, and the raster stays unless the pending setup changes it (R3, R15). -/
theorem rtgSwitch_kept (r : Rtg) : (rtgSwitch r).counter = r.counter + 1
    ∧ (rasterChanges r = false → (rtgSwitch r).raster = r.raster) := by
  refine ⟨rfl, fun same => ?_⟩
  obtain ⟨-, -, -, evaluated⟩ := evaluateReference_fields (applyTimingSetup r)
  simp only [rtgSwitch, same, Bool.false_eq_true, if_false]
  exact evaluated.trans ((applyTimingSetup_kept r).2 same)

/-! ### The release of due cues -/

theorem releaseAnswer_invKeep (e : CueEntry) {s : State} (setup : SetupInv s) :
    InvKeep s (releaseAnswer e s).state := by
  unfold releaseAnswer
  split
  · exact dealCueCommand_invKeep _ _ setup
  · exact .refl s

/-- A released entry's command keeps the invariants, and so does the record of its refusal (R146, R147). -/
theorem releaseEntry_invKeep {e : CueEntry} (tag : e.tag ≠ 0) {s : State} (setup : SetupInv s) :
    InvKeep s (releaseEntry s e) := by
  unfold releaseEntry
  dsimp only
  split
  · next refused =>
    exact ⟨fun h => h.congr rfl rfl rfl rfl rfl, fun h => h.congr rfl rfl, fun h => h.failed e.owner tag refused, id⟩
  · exact releaseAnswer_invKeep e setup

theorem releaseEntries_standing {es : List CueEntry} (tags : ∀ e ∈ es, e.tag ≠ 0) {s : State} (h : Standing s) :
    Standing (es.foldl releaseEntry s) := by
  induction es generalizing s with
  | nil => exact h
  | cons e es ih =>
    obtain ⟨tag, tags⟩ := List.forall_mem_cons.1 tags
    exact ih tags ((releaseEntry_invKeep tag h.setup).standing h)

/-- At a switch point the due entries leave the queue and are dealt with (R145). -/
theorem releaseDue_standing {s : State} {counter : Word} (setup : SetupInv s) (transition : TransitionInv s)
    (tally : TallyInv s.tu) (cues : CueInv counter s.cq) (next : s.rtg.counter = counter + 1) :
    Standing (releaseDue s) := by
  refine releaseEntries_standing (fun e he => cues.tags e (List.mem_filter.1 he).1) ?_
  refine ⟨setup.congr rfl rfl rfl rfl rfl, transition.congr rfl rfl, ?_, tally⟩
  have counted := cues.counted
  rw [← next] at counted
  exact counted

/-- Between switch points no entry is due (R141). -/
theorem releaseFirst_standing {s : State} (h : Standing s) : Standing (releaseFirst s) := by
  have none : s.cq.entries.find? (isDue s) = none :=
    List.find?_eq_none.2 fun e he => by simpa [isDue] using h.cues.notDue he
  simpa [releaseFirst, none] using h

/-! ### The switch point -/

/-- A switch point once the clip count is closed, the RTG has acted and the inputs have switched. -/
def State.framed (xready : Bool) (s : State) : State :=
  inputsSwitch s.rtg xready (timingSwitch (closeClipFrame s))

/-- Then the setups are copied, the direction reloaded and the crop edges clamped. -/
def State.copied (xready : Bool) (s : State) : State :=
  setupSwitch (rasterChanges s.rtg) (s.framed xready)

/-- Then the quiet count rises and the frame take runs its stages. -/
def State.staged (xready : Bool) (s : State) : State := frameTake (quietStep (s.copied xready))

/-- Then the INPUT notice is raised and the tally published; the due cues are released last. -/
def State.published (xready : Bool) (s : State) : State :=
  publishTally (inputNotice s.bi.inputs (s.staged xready))

theorem switchPointWork_eq (xready : Bool) (s : State) :
    switchPointWork xready s = releaseDue (s.published xready) := rfl

section Framed
variable (xready : Bool) (s : State)

@[simp] theorem framed_rtg : (s.framed xready).rtg = rtgSwitch s.rtg := by
  simp [State.framed, inputsSwitch, goLiveAll, judgeAll, timingSwitch, closeClipFrame]

@[simp] theorem framed_mes : (s.framed xready).mes = s.mes := by
  simp [State.framed, inputsSwitch, goLiveAll, judgeAll, timingSwitch, closeClipFrame]

@[simp] theorem framed_tc : (s.framed xready).tc = s.tc := by
  simp [State.framed, inputsSwitch, goLiveAll, judgeAll, timingSwitch, closeClipFrame]

@[simp] theorem framed_lu : (s.framed xready).lu = s.lu := by
  simp [State.framed, inputsSwitch, goLiveAll, judgeAll, timingSwitch, closeClipFrame]

@[simp] theorem framed_wg : (s.framed xready).wg = s.wg := by
  simp [State.framed, inputsSwitch, goLiveAll, judgeAll, timingSwitch, closeClipFrame]

@[simp] theorem framed_tu : (s.framed xready).tu = s.tu := by
  simp [State.framed, inputsSwitch, goLiveAll, judgeAll, timingSwitch, closeClipFrame]

@[simp] theorem framed_cq : (s.framed xready).cq = s.cq := by
  simp [State.framed, inputsSwitch, goLiveAll, judgeAll, timingSwitch, closeClipFrame]

@[simp] theorem framed_ss : (s.framed xready).ss = s.ss := by
  simp [State.framed, inputsSwitch, goLiveAll, judgeAll, timingSwitch, closeClipFrame]

end Framed

theorem clampCropsWhen_queues (changed : Bool) (s : State) : (clampCropsWhen changed s).rtg = s.rtg
    ∧ (clampCropsWhen changed s).cq = s.cq ∧ (clampCropsWhen changed s).tu = s.tu := by
  unfold clampCropsWhen
  split <;> exact ⟨rfl, rfl, rfl⟩

theorem copied_queues (xready : Bool) (s : State) : (s.copied xready).rtg = rtgSwitch s.rtg
    ∧ (s.copied xready).cq = s.cq ∧ (s.copied xready).tu = s.tu := by
  obtain ⟨rtg, cq, tu⟩ := clampCropsWhen_queues (rasterChanges s.rtg)
    (reloadDirection (copyNextToLive (s.framed xready)))
  exact ⟨rtg.trans (by simp [copyNextToLive]), cq.trans (by simp [copyNextToLive]),
    tu.trans (by simp [copyNextToLive])⟩

/-- The queues through the frame take: it reads none of them. -/
theorem frameTake_queues (s : State) : (frameTake s).rtg = s.rtg ∧ (frameTake s).cq = s.cq
    ∧ (frameTake s).tu = s.tu := by
  refine frameTake_keeps (X := fun t => t.rtg = s.rtg ∧ t.cq = s.cq ∧ t.tu = s.tu) (fun k h => ?_) (fun h => ?_)
    ⟨rfl, rfl, rfl⟩
  · rw [k.rtg, k.cq, k.tu]
    exact h
  · rename_i u
    rcases sceneCutStage_cases u with ⟨-, e⟩ | ⟨c, -, ⟨-, -, e⟩ | ⟨-, e⟩⟩ <;> rw [e] <;> exact h

theorem staged_queues (xready : Bool) (s : State) : (s.staged xready).rtg = rtgSwitch s.rtg
    ∧ (s.staged xready).cq = s.cq ∧ (s.staged xready).tu = s.tu := by
  obtain ⟨rtg, cq, tu⟩ := copied_queues xready s
  obtain ⟨rtg', cq', tu'⟩ := frameTake_queues (quietStep (s.copied xready))
  exact ⟨by simp [State.staged, rtg', rtg], by simp [State.staged, cq', cq], by simp [State.staged, tu', tu]⟩

theorem copied_inv (xready : Bool) {s : State} (setup : SetupInv s) (transition : TransitionInv s) :
    SetupInv (s.copied xready) ∧ TransitionInv (s.copied xready) := by
  obtain ⟨-, raster⟩ := rtgSwitch_kept s.rtg
  refine ⟨setupSwitch_inv (old := s.rtg) ?_ (by simpa using raster),
    setupSwitch_transitionInv (transition.congr (by simp) (by simp))⟩
  exact setup.congr rfl (by simp) (by simp) (by simp) (by simp)

theorem staged_inv (xready : Bool) {s : State} (inv : EngineInv s) :
    SetupInv (s.staged xready) ∧ TransitionInv (s.staged xready) := by
  obtain ⟨setup, transition⟩ := copied_inv xready inv.setup inv.transition
  have quiet := (quietStep_stageKeeps (s.copied xready)).setupInv setup
  have limits : ∀ p, ((s.copied xready).ports.get p).quietLimit ≤ 255 := fun p => by
    have ports := (((closeClipFrame_portsKeep s).trans (timingSwitch_portsKeep _)).trans
      ((inputsSwitch_portsKeep s.rtg xready _).trans (setupSwitch_portsKeep (rasterChanges s.rtg) _))).ports p
    exact (ports.ranges (inv.ranges p)).quiet.2
  exact ⟨frameTake_keeps StageKeeps.setupInv sceneCutStage_setupInv quiet,
    frameTake_transitionInv quiet (quietStep_transitionInv transition limits)⟩

theorem inputNotice_invKeep (before : PerInput InputRec) (s : State) : InvKeep s (inputNotice before s) :=
  raiseAllWhen_invKeep _ .input s

theorem publishTally_invKeep (s : State) : InvKeep s (publishTally s) := by
  rw [publishTally_eq]
  refine .trans (t := { s with tu := publishedTally s }) ?_ (raiseAllWhen_invKeep _ .tally _)
  exact ⟨fun h => h.congr rfl rfl rfl rfl rfl, fun h => h.congr rfl rfl, id, fun h => publishedTally_inv h⟩

theorem publishTally_counter (s : State) : (publishTally s).rtg = s.rtg ∧ (publishTally s).cq = s.cq := by
  simp [publishTally_eq]

theorem switchPointWork_standing (xready : Bool) {s : State} (inv : EngineInv s) :
    Standing (switchPointWork xready s) := by
  obtain ⟨rtg, cq, tu⟩ := staged_queues xready s
  obtain ⟨setup, transition⟩ := staged_inv xready inv
  have tally : TallyInv (s.staged xready).tu := tu ▸ inv.tally
  have kept := (inputNotice_invKeep s.bi.inputs (s.staged xready)).trans (publishTally_invKeep _)
  have published : (s.published xready).rtg = rtgSwitch s.rtg ∧ (s.published xready).cq = s.cq := by
    obtain ⟨rtg', cq'⟩ := publishTally_counter (inputNotice s.bi.inputs (s.staged xready))
    simp only [inputNotice, raiseAllWhen_rtg, raiseAllWhen_cq] at rtg' cq'
    exact ⟨rtg'.trans rtg, cq'.trans cq⟩
  obtain ⟨rtg, cq⟩ := published
  exact releaseDue_standing (counter := s.rtg.counter) (kept.setup setup) (kept.transition transition)
    (kept.tally tally) (cq ▸ inv.cues) (rtg ▸ rfl)

theorem timingSetupWork_standing {s : State} (h : Standing s) : Standing (timingSetupWork s) := by
  obtain ⟨counter, raster⟩ := applyTimingSetup_kept s.rtg
  obtain ⟨rtg, cq, tu⟩ := clampCropsWhen_queues (rasterChanges s.rtg) (settleAll (rasterChanges s.rtg)
    (raiseAllWhen (decide ((applyTimingSetup s.rtg).lock ≠ s.rtg.lock)) .ref
      { s with rtg := applyTimingSetup s.rtg }))
  refine ⟨clampCropsWhen_setupInv (old := s.rtg) ?_ (by simpa using raster),
    clampCropsWhen_transitionInv (h.transition.congr (by simp) (by simp)), ?_, ?_⟩
  · exact h.setup.congr rfl (by simp) (by simp) (by simp) (by simp)
  · rw [timingSetupWork, rtg, cq]
    simpa [counter] using h.cues
  · rw [timingSetupWork, tu]
    simpa using h.tally

theorem TimedEvent.standing {c : Instr} {f : State → State} (event : TimedEvent c f) {s : State}
    (inv : EngineInv s) : Standing (f s) := by
  have h := inv.standing
  have kept : ∀ {t}, InvKeep s t → Standing t := fun k => k.standing h
  cases event with
  | lineSync t =>
    have line : (timeLine (timeAt s.rtg t) s.rtg).raster = s.rtg.raster
        ∧ (timeLine (timeAt s.rtg t) s.rtg).counter = s.rtg.counter := by
      unfold timeLine
      split <;> exact ⟨rfl, rfl⟩
    obtain ⟨raster, counter⟩ := line
    refine kept ⟨fun h => h.congr raster rfl rfl rfl rfl, fun h => h.congr rfl rfl, fun h => ?_, id⟩
    dsimp only
    rwa [counter]
  | frameMarker | inputMarker => exact kept {}
  | sample x y inputs =>
    dsimp only
    split
    · exact kept {}
    · exact h
  | switchPoint xready => exact switchPointWork_standing xready inv
  | timingSetupApply => exact timingSetupWork_standing h
  | issue xready =>
    exact ⟨h.setup.congr (by simp) (by simp) (by simp) (by simp) (by simp),
      h.transition.congr (by simp) (by simp), by simpa using h.cues, by simpa using h.tally⟩
  | goLive => exact kept {}
  | cueRelease => exact releaseFirst_standing h
  | engineResetApply =>
    exact (applyEngineReset_stageKeeps s).standing h (applyEngineReset_transitionInv h.transition)
  | sceneCutApply => exact sceneCutStage_standing h
  | keyCutApply k =>
    refine (behindSceneCut_stageKeeps (keyCutStage_stageKeeps k s)).standing h ?_
    exact behindSceneCut_transitionInv h.transition fun _ => keyCutStage_transitionInv k h.transition
  | cutPerform =>
    refine (behindSceneCut_stageKeeps (finish_stageKeeps (cutStage_stageKeeps s))).standing h ?_
    exact behindSceneCut_transitionInv h.transition fun _ =>
      finish_transitionInv (cutStage_transitionInv h.transition)
  | autoStart =>
    refine (behindSceneCut_stageKeeps (finish_stageKeeps (autoStage_stageKeeps s))).standing h ?_
    exact behindSceneCut_transitionInv h.transition fun noCut =>
      finish_transitionInv (autoStage_transitionInv h.transition h.setup.liveStart noCut)
  | takeover =>
    refine (behindSceneCut_stageKeeps (finish_stageKeeps (takeoverStage_stageKeeps s))).standing h ?_
    exact behindSceneCut_transitionInv h.transition fun _ =>
      finish_transitionInv (takeoverStage_transitionInv h.transition h.setup.liveStart)
  | manualStart =>
    exact (finish_stageKeeps (manualStage_stageKeeps s)).standing h
      (finish_transitionInv (manualStage_transitionInv h.transition h.setup.liveStart))
  | completion => exact (finish_stageKeeps (.refl s)).standing h (finish_transitionInv h.transition)
  | quietLimitExpiry =>
    exact (quietStep_stageKeeps s).standing h
      (quietStep_transitionInv h.transition fun p => (inv.ranges p).quiet.2)

theorem standing_kept : KeptByRows Standing where
  ofInv h := h.standing
  congr same h := ⟨h.setup.congr (by rw [same.rtg]) (by rw [same.mes]) (by rw [same.mes]) (by rw [same.tc]) same.ss,
    h.transition.congr same.tc same.lu, by rw [same.rtg, same.cq]; exact h.cues, by rw [same.tu]; exact h.tally⟩
  dealt deal h := (deal.invKeep h.setup).standing h.standing
  timed event h := event.standing h

/-- Settles O56: every row keeps both copies, the scene cut and the slots in range. -/
theorem stepKeepsSetupsInRange : Obligations.StepKeepsSetupsInRange :=
  fun _ _ inv h => (standing_kept.step inv h).setup

/-- Settles O57: every row keeps the controller and the lever consistent. -/
theorem stepKeepsTransitionAndLever : Obligations.StepKeepsTransitionAndLever :=
  fun _ _ inv h => (standing_kept.step inv h).transition

/-- Settles O58: every row keeps the cue queue in order and the tally well formed. -/
theorem stepKeepsCuesAndTally : Obligations.StepKeepsCuesAndTally :=
  fun _ _ inv h => ⟨(standing_kept.step inv h).cues, (standing_kept.step inv h).tally⟩

end Sys2Proof.Machine
end

section
/-!
SUPPORT. The rows of accepted commands. An accepted command is dealt with by the free intake, and its answer is
delivered to its port; the delivery goes through each of the checks, and a state that an answer leaves can be
read without the grant.
-/

namespace Sys2Proof.Machine

/-- The answer reaches the port of its command (R170). -/
def Answer.delivered (p : Port) (a : Answer) : State := reply p a.outcome a.data a.state

theorem commandFrame_accepted {c : Instr} {p : Port} {s : State} (h : Accepted c p s) {covered : List Byte}
    {chk : Byte} (hf : commandFrameOf c = some ⟨p, covered, chk⟩) (deal : State → Answer) :
    commandFrame p covered chk deal s = (deal (grant p s)).delivered p := by
  obtain ⟨reads, idle, covered', hc⟩ := h
  cases hf.symm.trans hc
  rw [commandFrame_checked reads idle]
  rfl

/-- An accepted command's row leaves what the delivery of its answer does. -/
theorem exec_delivered {c : Instr} {p : Port} {s t : State} (h : Accepted c p s) {covered : List Byte}
    {chk : Byte} {deal : State → Answer} (hf : commandFrameOf c = some ⟨p, covered, chk⟩)
    (row : exec c s = .next (commandFrame p covered chk deal s)) (ht : (deal (grant p s)).delivered p = t) :
    exec c s = .next t := by
  rw [row, commandFrame_accepted h hf, ht]

/-! ### Delivery through the checks -/

section Delivery
variable (p : Port) (s u : State) (o : CmdOutcome) (d : List Byte)

@[simp] theorem delivered_mk : (Answer.mk o d (grant p u)).delivered p = u.answering p o d := rfl

@[simp] theorem delivered_refuse : (refuse o (grant p u)).delivered p = u.answering p o := rfl

@[simp] theorem delivered_taken : (taken o (grant p u)).delivered p = u.answering p o := rfl

@[simp] theorem delivered_answered : (answered d (grant p u)).delivered p = u.answering p .ok d := rfl

theorem answering_ite {c : Prop} [Decidable c] (o' : CmdOutcome) :
    s.answering p (if c then o else o') d = if c then s.answering p o d else s.answering p o' d := by
  split <;> rfl

@[simp] theorem delivered_ite {c : Prop} [Decidable c] (a b : Answer) :
    (if c then a else b).delivered p = if c then a.delivered p else b.delivered p := by
  split <;> rfl

@[simp] theorem delivered_unlessSame (b : Bool) : (unlessSame b (grant p u) (grant p s)).delivered p =
    if b then s.answering p .ignored else u.answering p .ok := by
  unfold unlessSame
  split <;> rfl

@[simp] theorem delivered_checked (rs : List Resource) (ok : Bool) (rest : Answer) :
    (checked p rs ok (grant p s) rest).delivered p = if lockedOut s p rs then s.answering p .locked
      else if ok then rest.delivered p else s.answering p .param := by
  cases ok <;> simp [checked]

@[simp] theorem delivered_slotChecked (slot : Byte) (ok : Bool) (rest : Answer) :
    (slotChecked slot ok (grant p s) rest).delivered p = if isProtected s slot then s.answering p .locked
      else if ok then rest.delivered p else s.answering p .param := by
  cases ok <;> simp [slotChecked] <;> rfl

/-! ### States without the grant -/

@[simp] theorem inFlightSelection_grant : inFlightSelection (grant p s) = inFlightSelection s := rfl
@[simp] theorem transResources_grant : transResources (grant p s) = transResources s := rfl
@[simp] theorem cueResources_grant (c : CueCommand) : cueResources (grant p s) c = cueResources s c := by
  cases c <;> rfl
@[simp] theorem slot_grant (n : Slot) : (grant p s).slot n = s.slot n := rfl
@[simp] theorem recordAt_grant (b : Byte) : recordAt (grant p s) b = recordAt s b := rfl
@[simp] theorem mapNext_grant (f : Setup → Setup) : mapNext f (grant p s) = grant p (mapNext f s) := rfl
@[simp] theorem request_grant (i : InputId) (src : Source) :
    request i src (grant p s) = grant p (request i src s) := rfl
@[simp] theorem writeWipe_grant (w : WipeSetup) : writeWipe w (grant p s) = grant p (writeWipe w s) := rfl
@[simp] theorem withTc_grant (t : Tc) : (grant p s).withTc t = grant p (s.withTc t) := rfl
@[simp] theorem mapTc_grant (f : Tc → Tc) : mapTc f (grant p s) = grant p (mapTc f s) := rfl
@[simp] theorem mapPort_grant (q : Port) (f : PortState → PortState) :
    mapPort q f (grant p s) = grant p (mapPort q f s) := rfl
@[simp] theorem setSlot_grant (n : Slot) (sc : Option Scene) :
    setSlot n sc (grant p s) = grant p (setSlot n sc s) := rfl
@[simp] theorem setLever_grant (q : Port) (l : Lever) : (grant p s).setLever q l = grant p (s.setLever q l) := rfl
@[simp] theorem setEntries_grant (es : List CueEntry) : setEntries es (grant p s) = grant p (setEntries es s) := rfl
@[simp] theorem setPendingTiming_grant (ts : Option TimingPair) :
    setPendingTiming ts (grant p s) = grant p (setPendingTiming ts s) := rfl
@[simp] theorem releaseHold_grant : releaseHold (grant p s) = grant p (releaseHold s) := rfl

end Delivery

/-! ### Byte values -/

theorem byte_eq_zero_iff (b : Byte) : b = 0 ↔ b.toNat = 0 :=
  ⟨fun h => by rw [h]; rfl, fun h => BitVec.eq_of_toNat_eq h⟩

/-- A boolean byte names a value exactly when it is 0 or 1, and then it is bit 0. -/
theorem boolOf_eq (b : Byte) : boolOf b = if b ≠ 0 ∧ b ≠ 1 then none else some (b.getLsbD 0) := by
  unfold boolOf
  split
  · next zero => rw [(byte_eq_zero_iff b).2 zero]; rfl
  · next one => rw [show b = 1 from BitVec.eq_of_toNat_eq one]; rfl
  · next zero one =>
    exact (if_pos ⟨fun h => zero (by rw [h]; rfl), fun h => one (by rw [h]; rfl)⟩).symm

/-! ### Bus and setup commands (chapters 2, 3 and 6) -/

theorem busResources_some {bus : Byte} {b : BusName} (h : busOf bus = some b) :
    busResources bus = [busResource b] := by
  cases b <;> simp [busResources, h, busResource]

theorem isBackground_iff (b : BusName) : b.isBackground = true ↔ busResource b = .bkgd := by
  cases b <;> simp [BusName.isBackground, busResource]

/-- Settles O17: the two codes are read first, and then the checks come in the statement's order. -/
theorem selectBusWritesRequest : Obligations.SelectBusWritesRequest := by
  intro p bus source chk s h
  refine exec_delivered h rfl rfl ?_
  unfold dealSelectBus selectBusInRange
  cases hb : busOf bus with
  | none => simp [busResources, hb, lockedOut]
  | some b =>
    simp only [delivered_checked, busResources_some hb, lockedOut_singleton]
    cases hs : sourceOf source with
    | none => simp [answering_ite]
    | some x => simp [isBackground_iff] <;> rfl

/-- A selection byte names a selection exactly when it names layers that are not empty. -/
theorem selectionOf_eq (b : Byte) :
    selectionOf b = (layersOf b).bind fun sel => if sel.nonEmpty then some sel else none := by
  unfold selectionOf
  cases layersOf b with
  | none => rfl
  | some sel => cases h : sel.nonEmpty <;> simp [Option.filter, h]

/-- Settles O18. -/
theorem setNextAndSetRate : Obligations.SetNextAndSetRate := by
  constructor
  · intro p layers type chk s h
    refine exec_delivered h rfl rfl ?_
    unfold dealSetNext setNextInRange
    simp only [delivered_checked, lockedOut_singleton, selectionOf_eq]
    cases layersOf layers with
    | none => simp
    | some sel =>
      cases hs : sel.nonEmpty <;> cases typeOf type <;> simp [hs] <;> rfl
  · intro p rate chk s h
    refine exec_delivered h rfl rfl ?_
    simp [dealSetRate, lockedOut_singleton]
    rfl

end Sys2Proof.Machine
end

section
/-!
SUPPORT. The rows of accepted commands (continued): the setups of ports, keyers, wipe, mattes, limiter, alignment,
scenes and timing, and the reads.
-/

namespace Sys2Proof.Machine

/-- The first checks, with what is out of range named. -/
theorem delivered_checked_unless {p : Port} {s : State} {rs : List Resource} {ok : Bool} {rest : Answer}
    {bad : Prop} [Decidable bad] (h : ok = true ↔ ¬bad) :
    (checked p rs ok (grant p s) rest).delivered p = if lockedOut s p rs then s.answering p .locked
      else if bad then s.answering p .param else rest.delivered p := by
  rw [delivered_checked]
  by_cases b : bad
  · simp [b, Bool.eq_false_iff.2 (mt h.1 (not_not.2 b))]
  · simp [b, h.2 b]

/-- IGNORED or OK, with what stands already named. -/
theorem delivered_unlessSame_iff {p : Port} {s t u : State} {b : Bool} {same : Prop} [Decidable same]
    (h : b = true ↔ same) (ht : t = grant p u) : (unlessSame b t (grant p s)).delivered p =
      if same then s.answering p .ignored else u.answering p .ok := by
  subst ht
  rw [delivered_unlessSame]
  exact if_congr h rfl rfl

/-- Settles O10. -/
theorem noticeAndPortSetupCommands : Obligations.NoticeAndPortSetupCommands := by
  refine ⟨fun p chk s h => exec_delivered h rfl rfl rfl, fun p mask chk s h => ?_, fun p format quiet chk s h => ?_⟩
  · refine exec_delivered h rfl rfl ?_
    simp only [dealNoticeMask, delivered_ite, delivered_refuse, mapPort_grant, delivered_unlessSame, BitVec.le_def]
    simp
    rfl
  · refine exec_delivered h rfl rfl ?_
    have formats : formatOf format =
        if format ≠ 0 ∧ format ≠ 1 then none else some (if format = 0 then LeverFormat.right else .left) := by
      unfold formatOf
      split
      · next zero => simp [(byte_eq_zero_iff format).2 zero]
      · next one => simp [show format = 1 from BitVec.eq_of_toNat_eq one]
      · next zero one =>
        exact (if_pos ⟨fun h => zero (by rw [h]; rfl), fun h => one (by rw [h]; rfl)⟩).symm
    simp only [dealPortSetup, formats]
    by_cases other : format ≠ 0 ∧ format ≠ 1
    · rw [if_pos other, if_pos (.inl other)]
      exact delivered_refuse p s .param
    · rw [if_neg other]
      simp only [other, false_or]
      simp
      rfl

/-! ### Keyers (R41 to R43) -/

theorem cropBeyond_iff (r : Raster) (k : KeyerSetup) : cropBeyond r k = true ↔
    activeWidth r < k.left ∨ activeWidth r < k.right ∨ activeHeight r < k.top ∨ activeHeight r < k.bottom := by
  simp [cropBeyond, or_assoc]

/-- Settles O19. -/
theorem keyerSetupCommands : Obligations.KeyerSetupCommands := by
  refine ⟨fun p keyer flags clip gain opacity chk s h => ?_, fun p keyer enable left right top bottom chk s h => ?_,
    fun p a b c d chk s h => ?_⟩
  · refine exec_delivered h rfl rfl ?_
    unfold dealKeySetup keySetupInRange keyerResources
    cases keyerOf keyer with
    | none => simp [lockedOut]
    | some k =>
      rw [delivered_checked_unless (bad := 4 ≤ flags.toNat ∨ 1023 < clip.toNat ∨ 4095 < gain.toNat) (by simp; omega)]
      simp [lockedOut_singleton]
      rfl
  · refine exec_delivered h rfl rfl ?_
    unfold dealKeyCrop keyCropInRange keyerResources
    cases keyerOf keyer with
    | none => simp [lockedOut]
    | some k =>
      rw [delivered_checked_unless (bad := enable ≠ 0 ∧ enable ≠ 1) (by rw [boolOf_eq]; split <;> simp_all)]
      simp only [boolOf_eq, lockedOut_singleton]
      refine ite_congr rfl (fun _ => rfl) fun _ => ite_congr rfl (fun _ => rfl) fun ok => ?_
      rw [if_neg ok]
      simp [cropBeyond_iff]
      rfl
  · refine exec_delivered h rfl rfl ?_
    have locked : lockedOut s p allKeyerResources = Keyer.all.any fun k => heldByOther s p (.keyer k) := by
      simp [lockedOut, allKeyerResources, Function.comp_def]
    unfold dealKeyOrder keyOrderInRange orderOf
    rw [delivered_checked, locked]
    refine ite_congr rfl (fun _ => rfl) fun _ => ?_
    generalize keyerOf a = ka, keyerOf b = kb, keyerOf c = kc, keyerOf d = kd
    match ka, kb, kc, kd with
    | none, _, _, _ | some _, none, _, _ | some _, some _, none, _ | some _, some _, some _, none => simp
    | some k, some l, some m, some n =>
      have distinct : (k ≠ l ∧ k ≠ m ∧ k ≠ n ∧ l ≠ m ∧ l ≠ n ∧ m ≠ n) ↔ [k, l, m, n].Nodup := by
        simp [and_assoc]
      simp only [distinct]
      split
      · simp [eq_comm (b := s.mes.next.order)]
        rfl
      · simp

/-! ### Wipe, mattes, limiter, alignment, protection and timing -/

/-- The arguments of WIPE SETUP lie out of range (R105). -/
def wipeBeyond (softness : Half) (rh rv : Byte) (cx cy : Half) (flags : Byte) : Prop :=
  1024 < softness.toNat ∨ rh.toNat = 0 ∨ 16 < rh.toNat ∨ rv.toNat = 0 ∨ 16 < rv.toNat
    ∨ 4095 < cx.toNat ∨ 4095 < cy.toNat ∨ 4 ≤ flags.toNat

theorem wipeOf_beyond {pattern : Byte} {softness : Half} {rh rv : Byte} {cx cy : Half} {flags : Byte}
    (h : wipeBeyond softness rh rv cx cy flags) : wipeOf pattern softness rh rv cx cy flags = none := by
  unfold wipeOf
  split
  · rfl
  · exact if_neg (by unfold wipeBeyond at h; omega)

theorem wipeOf_within {pattern : Byte} {softness : Half} {rh rv : Byte} {cx cy : Half} {flags : Byte}
    (h : ¬wipeBeyond softness rh rv cx cy flags) : wipeOf pattern softness rh rv cx cy flags =
      (patternOf pattern).map fun pat => ⟨pat, softness.toNat, rh.toNat, rv.toNat, cx.toNat, cy.toNat,
        flags.getLsbD 0, flags.getLsbD 1⟩ := by
  unfold wipeOf
  split
  · next none => rw [none]; rfl
  · next pat some =>
    rw [some]
    exact if_pos (by unfold wipeBeyond at h; omega)

/-- Settles O20. -/
theorem wipeMatteAndLimiterSetup : Obligations.WipeMatteAndLimiterSetup := by
  refine ⟨fun p pattern softness rh rv cx cy flags chk s h => ?_, fun p matte y cb cr chk s h => ?_,
    fun p yLo yHi cLo cHi chk s h => ?_⟩
  · refine exec_delivered h rfl rfl ?_
    unfold dealWipeSetup wipeSetupInRange
    rw [delivered_checked, lockedOut_singleton]
    refine ite_congr rfl (fun _ => rfl) fun _ => ?_
    by_cases bad : wipeBeyond softness rh rv cx cy flags
    · rw [wipeOf_beyond bad]
      cases patternOf pattern with
      | none => simp
      | some pat => exact (if_pos bad).symm
    · rw [wipeOf_within bad]
      cases patternOf pattern with
      | none => simp
      | some pat =>
        refine Eq.trans ?_ (if_neg bad).symm
        simp [directionOf, and_assoc]
        rfl
  · refine exec_delivered h rfl rfl ?_
    unfold dealMatteSet
    rw [delivered_checked, lockedOut_singleton]
    refine ite_congr rfl (fun _ => rfl) fun _ => ?_
    by_cases bad : 1023 < y.toNat ∨ 1023 < cb.toNat ∨ 1023 < cr.toNat
    · rw [if_pos bad, if_neg (by simp [matteSetInRange]; omega)]
    · rw [if_neg bad]
      have within : y.toNat ≤ 1023 ∧ cb.toNat ≤ 1023 ∧ cr.toNat ≤ 1023 := by omega
      by_cases one : matte = 1
      · subst one
        rw [if_pos (by simp [matteSetInRange, within])]
        rfl
      · by_cases two : matte = 2
        · subst two
          rw [if_pos (by simp [matteSetInRange, within])]
          rfl
        · rw [if_neg (by simp_all [matteSetInRange]), if_neg one, if_neg two]
  · refine exec_delivered h rfl rfl ?_
    unfold dealLimiterSetup
    rw [delivered_checked_unless (bad := 1023 < yLo.toNat ∨ 1023 < yHi.toNat ∨ 1023 < cLo.toNat
      ∨ 1023 < cHi.toNat ∨ yHi < yLo ∨ cHi < cLo) (by simp [limiterInRange, BitVec.lt_def]; omega)]
    simp [lockedOut_singleton]
    rfl

/-- Settles O21. -/
theorem alignProtectAndTimingSetup : Obligations.AlignProtectAndTimingSetup := by
  refine ⟨⟨fun p lMin lMax chk s h => ?_, fun p count chk s h => ?_⟩, fun p raster enable chk s h => ?_⟩
  · refine exec_delivered h rfl rfl ?_
    unfold dealAlignSetup
    rw [delivered_checked_unless (bad := lMin = 0 ∨ 7 < lMin.toNat ∨ lMax = 0 ∨ 7 < lMax.toNat ∨ lMax < lMin)
      (by simp only [alignInRange, BitVec.lt_def, byte_eq_zero_iff]; simp; omega)]
    simp only [lockedOut_singleton]
    exact ite_congr rfl (fun _ => rfl) fun _ => ite_congr rfl (fun _ => rfl) fun _ =>
      delivered_unlessSame_iff (by simp) rfl
  · refine exec_delivered h rfl rfl ?_
    unfold dealSceneProtect
    rw [delivered_checked_unless (bad := 16 < count.toNat) (by simp)]
    simp only [lockedOut_singleton]
    exact ite_congr rfl (fun _ => rfl) fun _ => ite_congr rfl (fun _ => rfl) fun _ =>
      delivered_unlessSame_iff (by simp) rfl
  · refine exec_delivered h rfl rfl ?_
    unfold dealTimingSetup timingInRange
    rw [delivered_checked_unless (bad := 3 < raster.toNat ∨ (enable ≠ 0 ∧ enable ≠ 1))
      (by rw [boolOf_eq, rasterOf]; split <;> split <;> simp_all <;> omega)]
    simp only [lockedOut_singleton]
    refine ite_congr rfl (fun _ => rfl) fun _ => ite_congr rfl (fun _ => rfl) fun ok => ?_
    obtain ⟨low, bit⟩ := not_or.1 ok
    rw [boolOf_eq, if_neg bit, rasterOf, dif_pos (by omega)]
    have number : (⟨raster.toNat, by omega⟩ : Raster) = Fin.ofNat 4 raster.toNat :=
      Fin.ext (Nat.mod_eq_of_lt (by omega)).symm
    have same : Fin.ofNat 4 raster.toNat = s.rtg.raster ↔ raster.toNat = s.rtg.raster.val := by
      rw [← number, Fin.ext_iff]
    rw [number]
    generalize Fin.ofNat 4 raster.toNat = r at same ⊢
    simp only [delivered_ite, delivered_refuse, grant_rtg, grant_tc, ne_eq, same, Bool.and_eq_true, beq_iff_eq,
      Option.isNone_iff_eq_none]
    refine ite_congr rfl (fun _ => rfl) fun _ => ?_
    by_cases inForce : raster.toNat = s.rtg.raster.val ∧ enable.getLsbD 0 = s.rtg.enable
    · by_cases none : s.rtg.pendingSetup = none
      · rw [if_pos ⟨inForce, none⟩, if_pos inForce, if_pos none]
        rfl
      · rw [if_neg (fun h => none h.2), if_pos inForce, if_pos inForce, if_neg none]
        rfl
    · rw [if_neg (fun h => inForce h.1), if_neg inForce, if_neg inForce]
      rfl

/-! ### CUT, AUTO and KEY CUT (R62 to R64) -/

theorem mapTc_eq (f : Tc → Tc) (s : State) : mapTc f s = s.withTc (f s.tc) := rfl

theorem selectionConcerned_eq (s : State) : selectionConcerned s =
    if s.tc.mode = .idle then s.mes.next.selection else inFlightSelection s := by
  unfold selectionConcerned
  cases s.tc.mode <;> rfl

/-- The lock test of CUT, AUTO and lever values, resource by resource (R48, R49). -/
theorem lockedOut_transResources (s : State) (p : Port) :
    lockedOut s p (transResources s) =
      (heldByOther s p .trans || ((selectionConcerned s).bkgd && heldByOther s p .bkgd)
        || Keyer.all.any fun k => (selectionConcerned s).keyers.get k && heldByOther s p (.keyer k)) := by
  cases bkgd : (selectionConcerned s).bkgd <;>
    simp [lockedOut, transResources, layerResources, bkgd, Function.comp_def, Bool.or_assoc]

/-- Settles O22. -/
theorem cutAutoAndKeyCutPend : Obligations.CutAutoAndKeyCutPend := by
  refine ⟨fun p chk s => ⟨fun h => ?_, fun h => ?_⟩, fun p keyer target chk s h => ?_⟩
  · refine exec_delivered h rfl rfl ?_
    unfold dealCut
    rw [transResources_grant, delivered_checked, lockedOut_transResources, selectionConcerned_eq]
    refine ite_congr rfl (fun _ => rfl) fun _ => ?_
    cases main : s.tc.main <;> simp [main, mapTc_eq, onlyPort]
  · refine exec_delivered h rfl rfl ?_
    unfold dealAuto
    rw [transResources_grant, delivered_checked, lockedOut_transResources, selectionConcerned_eq]
    refine ite_congr rfl (fun _ => rfl) fun _ => ?_
    cases mode : s.tc.mode <;> cases main : s.tc.main <;> simp [mode, main, mapTc_eq, onlyPort]
  · refine exec_delivered h rfl rfl ?_
    unfold dealKeyCut keyCutInRange keyerResources
    cases keyerOf keyer with
    | none => simp [lockedOut]
    | some k =>
      rw [delivered_checked_unless (bad := target ≠ 0 ∧ target ≠ 1) (by rw [boolOf_eq]; split <;> simp_all)]
      simp only [boolOf_eq, lockedOut_singleton]
      refine ite_congr rfl (fun _ => rfl) fun _ => ite_congr rfl (fun _ => rfl) fun ok => ?_
      rw [if_neg ok]
      dsimp only
      rw [delivered_ite]
      exact ite_congr rfl (fun _ => rfl) fun _ => delivered_unlessSame_iff (by simp) rfl

end Sys2Proof.Machine
end

section
/-!
SUPPORT. The rows of accepted commands (continued): the lever, the cue queue, the scene store, the resets and the
reads (chapters 5, 7 to 11).
-/

namespace Sys2Proof.Machine

/-! ### Equal states -/

/-- Two states agree when each part does; the parts that a proof does not name agree by computation. -/
theorem state_ext {s t : State} (pending : s.pending = t.pending := by simp)
    (resetLow : s.resetLow = t.resetLow := by simp) (rtg : s.rtg = t.rtg := by simp) (bi : s.bi = t.bi := by simp)
    (xl : s.xl = t.xl := by simp) (mes : s.mes = t.mes := by simp) (tc : s.tc = t.tc := by simp)
    (lu : s.lu = t.lu := by simp) (wg : s.wg = t.wg := by simp) (cmp : s.cmp = t.cmp := by simp)
    (tu : s.tu = t.tu := by simp) (cq : s.cq = t.cq := by simp) (ss : s.ss = t.ss := by simp)
    (ports : ∀ q, s.ports.get q = t.ports.get q := by simp)
    (lastGranted : s.lastGranted = t.lastGranted := by simp) : s = t := by
  obtain ⟨⟩ := s
  obtain ⟨⟩ := t
  cases pending; cases resetLow; cases rtg; cases bi; cases xl; cases mes; cases tc; cases lu; cases wg; cases cmp
  cases tu; cases cq; cases ss; cases lastGranted; cases PerPort.ext_get ports
  rfl

theorem raiseAllWhen_eq_onPorts (c : Bool) (n : Notice) (s : State) :
    raiseAllWhen c n s = s.onPorts fun _ => raisedWhen c n := by
  unfold State.onPorts
  exact state_ext (ports := fun q => by simp [raisedWhen])

theorem raiseEach_eq_onPorts (n : Notice) (pick : Port → Bool) (s : State) :
    raiseEach n pick s = s.onPorts fun p => raisedWhen (pick p) n := rfl

/-! ### Rows whose length their own bytes give -/

theorem exec_sizedFrame_delivered {c : Instr} {p : Port} {s t : State} (h : Accepted c p s) {head : List Byte} {n : Nat}
    {body : List Byte} {deal : State → Answer} (hf : commandFrameOf c = sizedFrameOf p head n body)
    (row : exec c s = .next (sizedFrame p head n body deal s)) (ht : (deal (grant p s)).delivered p = t) :
    exec c s = .next t := by
  obtain ⟨covered, hc⟩ := h.2.2
  rw [sizedFrame_eq, ← hf, hc] at row
  exact exec_delivered h hc row ht

/-! ### The cue queue (chapter 9) -/

theorem eraseP_tag_eq_filter {es : List CueEntry} (distinct : (es.map CueEntry.tag).Nodup) (tag : Half) :
    es.eraseP (fun e => e.tag == tag) = es.filter fun e => e.tag != tag := by
  induction es with
  | nil => rfl
  | cons e es ih =>
    obtain ⟨fresh, distinct⟩ := List.nodup_cons.1 distinct
    by_cases same : e.tag = tag
    · have others : ∀ x ∈ es, (x.tag != tag) = true := fun x hx => by
        have : x.tag ≠ e.tag := fun h => fresh (h ▸ List.mem_map_of_mem hx)
        simpa [← same] using this
      simp [same, List.filter_eq_self.2 others]
    · simp [same, ih distinct]

theorem find?_tag_eq_some {es : List CueEntry} (distinct : (es.map CueEntry.tag).Nodup) {e : CueEntry} (he : e ∈ es) :
    es.find? (fun x => x.tag == e.tag) = some e := by
  obtain ⟨x, hx⟩ := Option.isSome_iff_exists.1
    (List.find?_isSome (p := fun x : CueEntry => x.tag == e.tag) |>.2 ⟨e, he, beq_self_eq_true _⟩)
  rw [hx, List.inj_on_of_nodup_map distinct (List.mem_of_find?_eq_some hx) he (by simpa using List.find?_some hx)]

/-- Settles O25: with distinct tags the entry found by its tag is the one that leaves. -/
theorem cueCancelAndCueList : Obligations.CueCancelAndCueList := by
  refine ⟨fun p tag chk s h => ⟨fun zero => ?_, fun some inv => ⟨fun e he same => ?_, fun unknown => ?_⟩⟩,
    fun p chk s h => exec_delivered h rfl rfl rfl⟩
  · refine exec_delivered h rfl rfl ?_
    rw [dealCueCancel, if_pos zero]
    rfl
  · refine exec_delivered h rfl rfl ?_
    rw [dealCueCancel, if_neg some, grant_cq, ← same, find?_tag_eq_some inv.distinct he]
    by_cases own : e.owner = p <;> simp [own, eraseP_tag_eq_filter inv.distinct] <;> rfl
  · refine exec_delivered h rfl rfl ?_
    have none : s.cq.entries.find? (fun e => e.tag == tag) = none :=
      List.find?_eq_none.2 fun e he => by simpa using unknown e he
    rw [dealCueCancel, if_neg some, grant_cq, none]
    rfl

theorem staysQueued_eq (value : Word) : staysQueued value = fun e =>
    decide (1 ≤ (e.target - value).toNat ∧ (e.target - value).toNat ≤ 65535) := by
  funext e
  exact (Bool.decide_and _ _).symm

/-- Settles O26: the pruning test is read as the statement writes it. -/
theorem setFrameCountPrunesCues : Obligations.SetFrameCountPrunesCues := by
  intro p value chk s h
  refine exec_delivered h rfl rfl ?_
  unfold dealSetFrameCount
  rw [delivered_checked, lockedOut_singleton, staysQueued_eq]
  exact ite_congr rfl (fun _ => rfl) fun _ => rfl

/-! ### The scene store (chapter 10) -/

theorem slotOf_eq (slot : Byte) : slotOf slot = if h : slot.toNat < 16 then some ⟨slot.toNat, h⟩ else none := rfl

theorem isProtected_iff (s : State) (slot : Byte) :
    isProtected s slot = true ↔ slot.toNat ≤ 15 ∧ slot.toNat < s.ss.protect := by
  unfold isProtected slotOf
  by_cases h : slot.toNat < 16
  · simp [h, Nat.le_of_lt_succ h]
  · simp [h]
    omega

/-- Settles O28: the protection test comes before the range checks. -/
theorem sceneWritersObeyProtection : Obligations.SceneWritersObeyProtection := by
  intro p slot mask chk body s
  refine ⟨fun h => exec_delivered h rfl rfl ?_, fun h => exec_sizedFrame_delivered h rfl rfl ?_,
    fun h => exec_delivered h rfl rfl ?_⟩
  · simp only [dealSceneSave, delivered_slotChecked, isProtected_iff]
    refine ite_congr rfl (fun _ => rfl) fun _ => ?_
    cases slotOf slot with
    | none => rfl
    | some n =>
      have bad : groupMaskInRange mask = true ↔ ¬(mask = 0 ∨ 16 ≤ mask.toNat) := by
        rw [byte_eq_zero_iff]
        simp [groupMaskInRange]
        omega
      by_cases out : mask = 0 ∨ 16 ≤ mask.toNat
      · simp only [if_pos out, Bool.eq_false_iff.2 (mt bad.1 (not_not.2 out))]
        rfl
      · simp only [if_neg out, bad.2 out]
        rfl
  · simp only [dealSceneLoad, delivered_slotChecked, isProtected_iff]
    refine ite_congr rfl (fun _ => rfl) fun _ => ?_
    cases slotOf slot with
    | none => rfl
    | some n => cases sceneOf mask (body.take (partsLength mask)) <;> rfl
  · simp only [dealSceneErase, delivered_slotChecked, isProtected_iff]
    refine ite_congr rfl (fun _ => rfl) fun _ => ?_
    cases slotOf slot with
    | none => rfl
    | some n =>
      simp

/-! ### The reads (chapters 7, 8 and 10) -/

/-- Settles O30; an aligned window of a power-of-two size stays within the table. -/
theorem sceneTallyAndClipReads : Obligations.SceneTallyAndClipReads := by
  refine ⟨⟨fun p slot chk s h => ?_, fun p start count window chk s h => ⟨fun bad => ?_, fun a b c d => ?_⟩⟩,
    fun p chk s h => ?_, fun p chk s h => ?_⟩
  · refine exec_delivered h rfl rfl ?_
    unfold dealSceneRead
    cases slotOf slot with
    | none => rfl
    | some n =>
      dsimp only
      rw [slot_grant]
      cases s.slot n <;> rfl
  · refine exec_delivered h rfl rfl ?_
    have : ¬(start.toNat < 128 ∧ 1 ≤ count.toNat ∧ count.toNat ≤ 128 ∧ window.toNat ≤ 3) := by
      rw [byte_eq_zero_iff] at bad
      omega
    rw [dealTallyRead, if_neg this]
    rfl
  · have zero := mt (byte_eq_zero_iff count).2 b
    have size : windowSize window = 16 * 2 ^ window.toNat := rfl
    refine ⟨(List.range count.toNat).map fun j =>
      tallyByte (entryAt s.tu.table (windowSource (windowSize window) start.toNat j)), by simp, fun j hj => ?_,
      exec_delivered h rfl rfl ?_⟩
    · have powers : window.toNat = 0 ∨ window.toNat = 1 ∨ window.toNat = 2 ∨ window.toNat = 3 := by omega
      have inTable : windowSource (windowSize window) start.toNat j < 128 := by
        unfold windowSource windowSize
        rcases powers with h | h | h | h <;> simp only [h] <;> omega
      have offset : start.toNat - (start.toNat - start.toNat % windowSize window) =
          start.toNat % windowSize window := Nat.sub_sub_self (Nat.mod_le _ _)
      refine ⟨⟨_, inTable⟩, ?_, ?_⟩
      · show _ = start.toNat - start.toNat % windowSize window +
          (start.toNat - (start.toNat - start.toNat % windowSize window) + j) % windowSize window
        rw [offset]
        rfl
      · simp [hj, entryAt, inTable]
    · rw [dealTallyRead, if_pos ⟨by omega, by omega, c, d⟩]
      rfl
  · exact exec_delivered h rfl rfl rfl
  · exact exec_delivered h rfl rfl rfl

theorem inputNumber_of_inputOf {b : Byte} {i : InputId} (h : inputOf b = some i) : byteOf (inputNumber i) = b := by
  have number : ∀ n : Fin 10, inputNumber (InputId.all[n.val]'n.isLt) = n.val := by decide
  obtain ⟨bound, rfl⟩ := List.getElem?_eq_some_iff.1 h
  rw [show inputNumber InputId.all[b.toNat] = b.toNat from number ⟨b.toNat, bound⟩]
  simp [byteOf]

theorem recInFlight_bit (r : InputRec) :
    (if r.requested ≠ r.issued ∨ r.awaiting = true then 128 else 0) = 128 * (recInFlight r).toNat := by
  by_cases differ : r.requested = r.issued <;> cases waits : r.awaiting <;> simp [recInFlight, differ, waits]

/-- Settles O33. -/
theorem stateTimingAndInputReads : Obligations.StateTimingAndInputReads := by
  refine ⟨fun p chk s h => ?_, fun p chk s h => ?_, fun p input chk s h => ?_⟩
  · exact exec_delivered h rfl rfl rfl
  · refine exec_delivered h rfl rfl ?_
    cases he : s.rtg.enable <;> cases hl : s.rtg.trimLimit <;> simp [dealTimingRead, timingBytes, he, hl] <;> rfl
  · refine exec_delivered h rfl rfl ?_
    unfold dealInputRead
    cases hi : inputOf input with
    | none => rfl
    | some i =>
      dsimp only
      rw [inputBytes, inputNumber_of_inputOf hi, recInFlight_bit]
      rfl

/-! ### The resets (section 11.7) -/

theorem leverPortReset_eq (p : Port) (s : State) : leverPortReset p s = { s with
    tc := { s.tc with manualDeferrals := if s.lu.holder = some p then 0 else s.tc.manualDeferrals }
    lu := {
      holder := if s.lu.holder = some p then none else s.lu.holder
      quiet := if s.lu.holder = some p then 0 else s.lu.quiet
      levers := s.lu.levers.set p powerOnLever } } := by
  by_cases held : s.lu.holder = some p <;> simp [leverPortReset, held] <;> rfl

theorem build_freed (locks : PerResource (Option Port)) (p : Port) :
    (PerResource.build fun r => if locks.get r = some p then none else locks.get r) =
      locks.map fun h => if h = some p then none else h :=
  PerResource.ext_get fun r => by simp

theorem portResetWork_eq (p : Port) (s : State) : portResetWork p s = { s with
    mes := { s.mes with locks := s.mes.locks.map fun h => if h = some p then none else h }
    tc := { s.tc with manualDeferrals := if s.lu.holder = some p then 0 else s.tc.manualDeferrals }
    lu := {
      holder := if s.lu.holder = some p then none else s.lu.holder
      quiet := if s.lu.holder = some p then 0 else s.lu.quiet
      levers := s.lu.levers.set p powerOnLever }
    tu := { s.tu with changes := s.tu.changes.set p ⟨[], true⟩ }
    cq := { s.cq with
      entries := s.cq.entries.filter fun e => e.owner != p
      failures := s.cq.failures.set p none }
    ports := .build fun q => raisedWhen (Resource.all.any fun r => decide (s.mes.locks.get r = some p)) .locks
      (if q = p then resetPort (s.ports.get q) else s.ports.get q) } := by
  unfold portResetWork freeLocks
  rw [leverPortReset_eq]
  refine state_ext (mes := ?_) (tc := ?_) (lu := ?_) (ports := fun q => ?_)
  · simp [holdsResource, build_freed]
  · rw [raiseAllWhen_tc]
    rfl
  · rw [raiseAllWhen_lu]
    rfl
  · by_cases own : q = p
    · subst own
      simp [holdsAny, holdsResource, raisedWhen]
    · simp [own, holdsAny, holdsResource, raisedWhen]

theorem portResetWork_grant (p : Port) (s : State) :
    portResetWork p (grant p s) = grant p (portResetWork p s) := by
  rw [portResetWork_eq, portResetWork_eq]
  rfl

/-- Settles O11. -/
theorem portResetClearsItsPort : Obligations.PortResetClearsItsPort := by
  intro p chk s h
  refine exec_delivered h rfl rfl ?_
  unfold dealPortReset
  rw [portResetWork_grant, delivered_taken, portResetWork_eq]
  unfold State.answering
  refine state_ext (tc := ?_) (lu := ?_) (ports := fun q => ?_)
  · simp only [decide_eq_true_eq]
  · simp only [decide_eq_true_eq]
    rfl
  · simp only [PerPort.get_build]
    generalize (Resource.all.any fun r => decide (s.mes.locks.get r = some p)) = freed
    by_cases own : q = p
    · subst own
      cases freed <;> simp <;> rfl
    · cases freed <;> simp [own] <;> rfl

theorem leverEngineReset_eq (p : Port) (s : State) : leverEngineReset p s = { s with
    tc := { s.tc with manualDeferrals := 0 }
    lu := { holder := none, quiet := 0, levers := noPickups s.lu.levers }
    ports := .build fun q => raisedWhen
      (decide (q ≠ p ∧ (s.lu.holder = some q ∨ (s.lu.levers.get q).pickup = .waiting))) .leverLost
      (s.ports.get q) } := by
  have levers : (PerPort.build fun q => { s.lu.levers.get q with pickup := Pickup.none }) = noPickups s.lu.levers :=
    PerPort.ext_get fun q => by simp [noPickups]
  have lost : ∀ q, decide (q ≠ p ∧ (s.lu.holder = some q ∨ (s.lu.levers.get q).pickup = .waiting)) =
      (q != p && (s.lu.holder == some q || isWaiting s q)) := fun q => by
    rw [Bool.decide_and, Bool.decide_or, decide_not, beq_eq_decide, bne, beq_eq_decide]
    rfl
  simp only [← levers, lost]
  rfl

theorem freeAllLocks_eq (s : State) : freeAllLocks s = { s with
    mes := { s.mes with locks := .const none }
    ports := .build fun q => raisedWhen (anyHeld s) .locks (s.ports.get q) } := by
  unfold freeAllLocks
  rw [raiseAllWhen_eq_onPorts]
  rfl

theorem dropCues_all (s : State) : dropCues (fun _ => false) s = { s with
    cq := { s.cq with entries := [] }
    ports := .build fun q => raisedWhen (s.cq.entries.any fun e => e.owner == q) .cueDrop (s.ports.get q) } := by
  simp [dropCues, setEntries, raiseEach, raisedWhen, State.port]

theorem setupEngineReset_inputsEngineReset (s : State) : setupEngineReset (inputsEngineReset s) = { s with
    bi := { s.bi with inputs := s.bi.inputs.map fun i =>
      { i with requested := 124, issued := 124, awaiting := false } }
    xl := { s.xl with lastSent := .const none }
    mes := { s.mes with next := defaultSetup s.rtg.raster }
    wg := { s.wg with reload := true } } := rfl

theorem engineResetWork_eq (p : Port) (s : State) : engineResetWork p s =
    let anyLock := Resource.all.any fun r => (s.mes.locks.get r).isSome
    let lost := fun q => decide (q ≠ p ∧ (s.lu.holder = some q ∨ (s.lu.levers.get q).pickup = .waiting))
    let dropped := fun q => s.cq.entries.any fun e => e.owner == q
    { s with
      bi := { s.bi with inputs := s.bi.inputs.map fun i =>
        { i with requested := 124, issued := 124, awaiting := false } }
      xl := { s.xl with lastSent := .const none }
      mes := { s.mes with next := defaultSetup s.rtg.raster, locks := .const none }
      wg := { s.wg with reload := true }
      tc := tcEngineReset s.tc
      lu := { holder := none, quiet := 0, levers := noPickups s.lu.levers }
      cq := { s.cq with entries := [] }
      ports := .build fun q => raisedWhen (dropped q) .cueDrop (raisedWhen (lost q) .leverLost
        (raisedWhen anyLock .locks (s.ports.get q))) } := by
  unfold engineResetWork
  rw [dropCues_all, leverEngineReset_eq, freeAllLocks_eq, setupEngineReset_inputsEngineReset]
  exact state_ext (tc := rfl) (ports := fun _ => rfl)

theorem engineResetWork_grant (p : Port) (s : State) :
    engineResetWork p (grant p s) = grant p (engineResetWork p s) := by
  rw [engineResetWork_eq, engineResetWork_eq]
  rfl

/-- Settles O12. -/
theorem engineResetAtOnce : Obligations.EngineResetAtOnce := by
  intro p chk s h
  refine exec_delivered h rfl rfl ?_
  unfold dealEngineReset
  rw [delivered_checked, lockedOut_singleton, engineResetWork_grant, delivered_taken, engineResetWork_eq]
  exact ite_congr rfl (fun _ => rfl) fun _ => rfl

end Sys2Proof.Machine
end

section
/-!
SUPPORT. The rows of accepted commands (continued): the lever and the stream frames (chapter 5, section 11.3).
-/

namespace Sys2Proof.Machine

/-! ### A lever value (R84 to R88) -/

theorem dealLeverValue_grant {p : Port} {s : State} (free : lockedOut s p (transResources s) = false) (field : Half) :
    dealLeverValue field p (grant p s) =
      match s.tc.mode, s.lu.holder with
      | .auto, _ => refuse .busy (grant p s)
      | .idle, none => idleValue p (leverValue (s.port p).format field) (grant p s)
      | .manual, none => manualValue p (leverValue (s.port p).format field) (grant p s)
      | .idle, some h | .manual, some h =>
        if h = p then holderValue p (leverValue (s.port p).format field) (grant p s)
        else refuse .locked (grant p s) := by
  have free' : lockedOut (grant p s) p (transResources (grant p s)) = false := free
  simp only [dealLeverValue, checked, free']
  rfl

theorem dealLeverValue_held {p h : Port} {s : State} (free : lockedOut s p (transResources s) = false)
    (notAuto : s.tc.mode ≠ .auto) (held : s.lu.holder = some h) (field : Half) :
    dealLeverValue field p (grant p s) =
      if h = p then holderValue p (leverValue (s.port p).format field) (grant p s) else refuse .locked (grant p s) := by
  rw [dealLeverValue_grant free, held]
  cases mode : s.tc.mode with
  | auto => exact absurd mode notAuto
  | idle => rfl
  | manual => rfl

theorem idleValue_rehome {p : Port} {v : Nat} {h : HomeEnd} (near : rehomeEnd v = some h) (s : State) :
    idleValue p v (grant p s) = taken .ok (grant p
      (s.withLu { s.lu with levers := s.lu.levers.set p ((s.lu.levers.get p).at h v) })) := by
  unfold idleValue
  rw [near]
  rfl

theorem idleValue_claim {p : Port} {v : Nat} (between : rehomeEnd v = none) (s : State) :
    idleValue p v (grant p s) = taken .ok (grant p (s.withLu
      ⟨some p, 0, s.lu.levers.set p ((s.lu.levers.get p).at (s.lu.levers.get p).home v)⟩)) := by
  unfold idleValue
  rw [between]
  rfl

theorem pickupTest_iff (pos prev new : Nat) : pickupTest pos prev new = true ↔
    (pos ≤ new + 64 ∧ new ≤ pos + 64) ∨ (prev < pos ∧ pos < new) ∨ (new < pos ∧ pos < prev) := by
  simp [pickupTest]
  omega

theorem losePickups_spared (p : Port) (s : State) :
    let loses := fun q => decide (q ≠ p) && decide ((s.lu.levers.get q).pickup = .waiting)
    losePickups (some p) s =
      (s.withLu { s.lu with levers := .build fun q => (s.lu.levers.get q).unlessWaiting (loses q) }).onPorts
        fun q => raisedWhen (loses q) .leverLost := by
  have picks : ∀ q, (decide (q ≠ p) && decide ((s.lu.levers.get q).pickup = .waiting)) =
      (isWaiting s q && some p != some q) := fun q => by
    rw [Bool.and_comm, bne, beq_eq_decide, decide_not]
    simp only [Option.some.injEq, eq_comm (a := p)]
    rfl
  simp only [picks]
  rfl

theorem unlessWaiting_of_waiting (l : Lever) :
    l.unlessWaiting (decide (l.pickup = .waiting)) = { l with pickup := .none } := by
  obtain ⟨home, value, pos, pickup⟩ := l
  cases pickup <;> rfl

/-- The taking port picks the lever up; every other WAITING port loses its pickup. -/
theorem manualValue_pickup {p : Port} {v : Nat} {s : State}
    (pickup : pickupTest s.tc.pos (s.lu.levers.get p).pos (leverPosition (s.lu.levers.get p).home v) = true) :
    manualValue p v (grant p s) = taken .ok (grant p
      ((s.withLu ⟨some p, 0, noPickups (s.lu.levers.set p ((s.lu.levers.get p).at (s.lu.levers.get p).home v))⟩).onPorts
        fun q => raisedWhen (decide (q ≠ p) && decide ((s.lu.levers.get q).pickup = .waiting)) .leverLost)) := by
  have test : pickupTest (grant p s).tc.pos ((grant p s).lever p).pos (((grant p s).lever p).withValue v).pos = true :=
    pickup
  simp only [manualValue, test, if_true, losePickups_spared]
  unfold State.onPorts State.withLu
  refine congrArg (taken .ok) (state_ext (lu := ?_) (ports := fun q => ?_))
  · refine congrArg (Lu.mk (some p) 0) (PerPort.ext_get fun q => ?_)
    by_cases own : q = p
    · subst own
      simp [noPickups, Lever.unlessWaiting]
      exact ⟨rfl, rfl, rfl⟩
    · simp [noPickups, own, unlessWaiting_of_waiting]
  · by_cases own : q = p <;> simp [own, raisedWhen]

theorem manualValue_pending {p : Port} {v : Nat} {s : State}
    (missed : pickupTest s.tc.pos (s.lu.levers.get p).pos (leverPosition (s.lu.levers.get p).home v) = false) :
    manualValue p v (grant p s) = taken .pending (grant p (s.withLu { s.lu with
      levers := s.lu.levers.set p
        { (s.lu.levers.get p).at (s.lu.levers.get p).home v with pickup := .waiting } })) := by
  have test : pickupTest (grant p s).tc.pos ((grant p s).lever p).pos (((grant p s).lever p).withValue v).pos = false :=
    missed
  simp only [manualValue, test]
  rfl

theorem holderValue_grant (p : Port) (v : Nat) (s : State) :
    holderValue p v (grant p s) = taken .ok (grant p (s.withLu
      ⟨s.lu.holder, 0, s.lu.levers.set p ((s.lu.levers.get p).at (s.lu.levers.get p).home v)⟩)) := rfl

/-! ### The streaming that a LEVER command enters -/

/-- What mode byte A5h makes of a port (R88). -/
def State.streamingWhen (enters : Prop) [Decidable enters] (p : Port) (t : State) : State :=
  if enters then t.onPort p fun ps => { ps with streaming := true } else t

theorem dealLever_refused {p : Port} {s : State} {field : Half} {o : CmdOutcome} (mode : Byte)
    (value : dealLeverValue field p (grant p s) = refuse o (grant p s)) (refused : o.refused = true) :
    (dealLever field mode p (grant p s)).delivered p = s.answering p o := by
  have : ¬(mode = streamMode ∧ (refuse o (grant p s)).outcome.refused = false) := fun h =>
    Bool.noConfusion (refused.symm.trans h.2)
  rw [dealLever, value, if_neg this, delivered_refuse]

theorem dealLever_taken {p : Port} {s u : State} {field : Half} {o : CmdOutcome} (mode : Byte)
    (value : dealLeverValue field p (grant p s) = taken o (grant p u)) (accepted : o.refused = false) :
    (dealLever field mode p (grant p s)).delivered p =
      (u.answering p o).streamingWhen (mode = 0xA5#8) p := by
  unfold dealLever State.streamingWhen
  rw [value]
  by_cases enters : mode = 0xA5#8
  · rw [if_pos ⟨enters, accepted⟩, if_pos enters]
    unfold Answer.delivered taken State.onPort State.answering PortState.awaiting
    refine state_ext (ports := fun q => ?_)
    by_cases own : q = p
    · subst own
      simp [setStreaming]
    · simp [own, setStreaming]
  · rw [if_neg (fun h => enters h.1), if_neg enters, delivered_taken]

/-- Settles O23: the table of R84, a line at a time. -/
theorem leverValueAndRelease : Obligations.LeverValueAndRelease := by
  refine ⟨fun p value mode chk s h => ⟨fun locked => ?_, fun free => ⟨fun auto => ?_, fun q auto held other => ?_,
    fun idle open_ low => ?_, fun idle open_ high => ?_, fun idle open_ low high => ?_, fun manual open_ pickup => ?_,
    fun manual open_ missed => ?_, fun auto held => ?_⟩⟩, fun p chk s h => ?_⟩
  · refine exec_delivered h rfl rfl (dealLever_refused mode ?_ rfl)
    simp [dealLeverValue, checked, locked]
  · refine exec_delivered h rfl rfl (dealLever_refused mode ?_ rfl)
    rw [dealLeverValue_grant free, auto]
  · refine exec_delivered h rfl rfl (dealLever_refused mode ?_ rfl)
    rw [dealLeverValue_held free auto held, if_neg other]
  · refine exec_delivered h rfl rfl (dealLever_taken mode (o := .ok) ?_ rfl)
    rw [dealLeverValue_grant free, idle, open_]
    exact idleValue_rehome (if_pos low) s
  · refine exec_delivered h rfl rfl (dealLever_taken mode (o := .ok) ?_ rfl)
    rw [dealLeverValue_grant free, idle, open_]
    exact idleValue_rehome ((if_neg (Nat.not_le.2 (Nat.lt_of_lt_of_le (by decide) high))).trans (if_pos high)) s
  · refine exec_delivered h rfl rfl (dealLever_taken mode (o := .ok) ?_ rfl)
    rw [dealLeverValue_grant free, idle, open_]
    exact idleValue_claim ((if_neg (Nat.not_le.2 low)).trans (if_neg (Nat.not_le.2 (Nat.lt_succ_of_le high)))) s
  · refine exec_delivered h rfl rfl (dealLever_taken mode (o := .ok) ?_ rfl)
    rw [dealLeverValue_grant free, manual, open_]
    exact manualValue_pickup ((pickupTest_iff ..).2 pickup)
  · refine exec_delivered h rfl rfl (dealLever_taken mode (o := .pending) ?_ rfl)
    rw [dealLeverValue_grant free, manual, open_]
    exact manualValue_pending (Bool.eq_false_iff.2 (mt (pickupTest_iff ..).1 missed))
  · refine exec_delivered h rfl rfl (dealLever_taken mode (o := .ok) ?_ rfl)
    rw [dealLeverValue_held free auto held, if_pos rfl]
    exact holderValue_grant p _ s
  · refine exec_delivered h rfl rfl ?_
    by_cases held : s.lu.holder = some p <;> simp [dealLeverRelease, held] <;> rfl

/-! ### Stream frames and the break (section 11.3) -/

/-- An answer with its state changed. -/
def Answer.onState (f : State → State) (a : Answer) : Answer := ⟨a.outcome, a.data, f a.state⟩

theorem onPorts_raisedWhen_setStreaming (c : Port → Bool) (n : Notice) (q : Port) (on : Bool) (s : State) :
    (setStreaming q on s).onPorts (fun r => raisedWhen (c r) n) =
      setStreaming q on (s.onPorts fun r => raisedWhen (c r) n) := by
  unfold State.onPorts
  refine state_ext (ports := fun r => ?_)
  by_cases own : r = q
  · subst own
    cases lost : c r <;> simp [setStreaming, raisedWhen, lost]
  · cases lost : c r <;> simp [setStreaming, raisedWhen, own, lost]

theorem losePickups_setStreaming (p q : Port) (on : Bool) (s : State) :
    losePickups (some p) (setStreaming q on s) = setStreaming q on (losePickups (some p) s) := by
  rw [losePickups_spared, losePickups_spared]
  exact onPorts_raisedWhen_setStreaming
    (fun r => decide (r ≠ p) && decide ((s.lu.levers.get r).pickup = .waiting)) .leverLost q on
    (s.withLu (Lu.mk s.lu.holder s.lu.quiet (.build fun r => (s.lu.levers.get r).unlessWaiting
      (decide (r ≠ p) && decide ((s.lu.levers.get r).pickup = .waiting)))))

/-- What a lever value does neither depends on its port's streaming nor changes it. -/
theorem dealLeverValue_setStreaming (field : Half) (p : Port) (on : Bool) (s : State) :
    dealLeverValue field p (setStreaming p on s) = (dealLeverValue field p s).onState (setStreaming p on) := by
  have format : ((setStreaming p on s).port p).format = (s.port p).format := by simp [setStreaming, State.port]
  have idle : ∀ v, idleValue p v (setStreaming p on s) = (idleValue p v s).onState (setStreaming p on) := fun v => by
    unfold idleValue
    cases rehomeEnd v <;> rfl
  have manual : ∀ v, manualValue p v (setStreaming p on s) = (manualValue p v s).onState (setStreaming p on) := by
    intro v
    have same : ((setStreaming p on s).lever p) = s.lever p := rfl
    simp only [manualValue, same, setStreaming_tc]
    cases pickupTest s.tc.pos (s.lever p).pos ((s.lever p).withValue v).pos with
    | false => rfl
    | true =>
      exact congrArg (taken .ok) (losePickups_setStreaming p p on
        (holdLever p (s.setLever p { (s.lever p).withValue v with pickup := .none })))
  have held : ∀ h v, (if h = p then holderValue p v (setStreaming p on s) else refuse .locked (setStreaming p on s)) =
      (if h = p then holderValue p v s else refuse .locked s).onState (setStreaming p on) := fun h v => by
    split <;> rfl
  have locked : lockedOut (setStreaming p on s) p (transResources (setStreaming p on s)) =
    lockedOut s p (transResources s) := rfl
  simp only [dealLeverValue, checked, locked, format, setStreaming_tc, setStreaming_lu]
  cases lockedOut s p (transResources s) with
  | true => rfl
  | false =>
    cases s.tc.mode with
    | auto => rfl
    | idle =>
      cases s.lu.holder with
      | none => exact idle _
      | some h => exact held h _
    | manual =>
      cases s.lu.holder with
      | none => exact manual _
      | some h => exact held h _

theorem reply_setStreaming (p : Port) (o : CmdOutcome) (d : List Byte) (on off : Bool) (s : State) :
    reply p o d (setStreaming p on s) =
      (reply p o d (setStreaming p off s)).onPort p fun ps => { ps with streaming := on } := by
  unfold State.onPort
  refine state_ext (ports := fun q => ?_)
  by_cases own : q = p
  · subst own
    simp [setStreaming]
  · simp [setStreaming, own]

theorem setStreaming_self {p : Port} {on : Bool} {s : State} (h : (s.port p).streaming = on) :
    setStreaming p on s = s := by
  subst h
  exact setPort_self s p

theorem dealLever_plain (field : Half) (p : Port) (s : State) :
    dealLever field 0 p s = dealLeverValue field p s := by
  have : ¬((0 : Byte) = streamMode ∧ (dealLeverValue field p s).outcome.refused = false) := fun h =>
    absurd h.1 (by decide)
  rw [dealLever, if_neg this]

theorem streamCourse_break {p : Port} {s : State} (reads : ReadsStream s p) {value : Half}
    (isBreak : value.extractLsb' 8 8 = 0xFF#8) (mode chk : Byte) : streamCourse p value mode chk s = takeBreak p s := by
  rw [streamCourse, if_pos ((takesStream_iff s p).2 reads), if_pos isBreak]

theorem streamCourse_wrong {p : Port} {s : State} (reads : ReadsStream s p) {value : Half} {mode chk : Byte}
    (noBreak : value.extractLsb' 8 8 ≠ 0xFF#8) (wrong : crc8 (be16 value ++ [mode]) ≠ chk) :
    streamCourse p value mode chk s = reply p .check [] s := by
  rw [streamCourse, if_pos ((takesStream_iff s p).2 reads), if_neg noBreak, if_neg wrong]

theorem streamCourse_taken {p : Port} {s : State} (reads : ReadsStream s p) (free : NothingWaits s) {value : Half}
    {mode chk : Byte} (noBreak : value.extractLsb' 8 8 ≠ 0xFF#8) (checks : crc8 (be16 value ++ [mode]) = chk) :
    streamCourse p value mode chk s = intake p (dealStream value mode p) s := by
  rw [streamCourse, if_pos ((takesStream_iff s p).2 reads), if_neg noBreak, if_pos checks, passToIntake,
    if_pos ((intakeFree_iff s).2 free)]

/-- A port that stops streaming takes a command frame in the place of a stream frame. -/
theorem ReadsStream.accepted_lever {p : Port} {s : State} (reads : ReadsStream s p) (free : NothingWaits s)
    (value : Half) (mode : Byte) :
    Accepted (.lever p value mode (crc8 (0x23#8 :: (be16 value ++ [mode])))) p (setStreaming p false s) := by
  obtain ⟨live, receiving, -⟩ := reads
  refine ⟨⟨live, ?_, ?_⟩, fun q => ?_, _, rfl⟩
  · simpa [setStreaming] using receiving
  · simp [setStreaming]
  · by_cases own : q = p
    · subst own
      simpa [setStreaming] using free q
    · simpa [setStreaming, own] using free q

/-- A stream frame leaves its port streaming exactly when its mode byte is A5h. -/
theorem dealStream_eq {p : Port} {s : State} {value : Half} {a : Answer} (mode : Byte)
    (value_ : dealLeverValue value p s = a) (stays : a.state = setStreaming p true a.state) :
    dealStream value mode p s = a.onState (setStreaming p (decide (mode = 0xA5#8))) := by
  unfold dealStream
  rw [value_]
  by_cases keeps : mode = 0xA5#8
  · rw [if_pos (show mode = streamMode from keeps), decide_eq_true keeps, Answer.onState, ← stays]
  · rw [if_neg (show mode ≠ streamMode from keeps), decide_eq_false keeps]
    rfl

/-- Settles O9: a lever value is the same to a streaming port, and a stream frame only decides what
streaming it leaves. -/
theorem streamFramesAndTheBreak : Obligations.StreamFramesAndTheBreak := by
  refine ⟨fun p value mode chk s reads noBreak => ⟨fun checks free => ?_, fun wrong => ?_⟩,
    fun p s reads => ⟨?_, fun value mode chk isBreak => ?_⟩⟩
  · let a := dealLeverValue value p (grant p s)
    have same : ∀ on, dealLeverValue value p (grant p (setStreaming p on s)) = a.onState (setStreaming p on) :=
      fun on => dealLeverValue_setStreaming value p on (grant p s)
    have stays : a.state = setStreaming p true a.state := by
      have := same true
      rw [setStreaming_self reads.2.2] at this
      exact congrArg Answer.state this
    refine ⟨reply p a.outcome a.data (setStreaming p false a.state),
      exec_delivered (reads.accepted_lever free value 0) rfl rfl ?_, congrArg Host.Outcome.next ?_⟩
    · show (dealLever value 0 p (grant p (setStreaming p false s))).delivered p = _
      rw [dealLever_plain, same]
      rfl
    · rw [streamCourse_taken reads free noBreak checks.symm, intake_eq, dealStream_eq mode rfl stays]
      exact reply_setStreaming ..
  · exact congrArg Host.Outcome.next (streamCourse_wrong reads noBreak wrong.symm)
  · exact congrArg Host.Outcome.next (if_pos ((takesStream_iff s p).2 reads))
  · exact congrArg Host.Outcome.next
      ((streamCourse_break reads isBreak mode chk).trans (if_pos ((takesStream_iff s p).2 reads)).symm)

end Sys2Proof.Machine
end

section
/-!
SUPPORT. The rows of accepted commands (continued): SCENE RECALL (section 10.4), CUE (section 9.2) and the release of a
cue as its port's command (section 9.3).
-/

namespace Sys2Proof.Machine

/-! ### Requested sources written together -/

/-- The state with the requested sources that a function gives. -/
def State.withRequests (f : InputId → Option Source) (s : State) : State :=
  { s with bi := { s.bi with inputs := buildInputs fun i => match f i with
    | some src => { s.bi.inputs.get i with requested := src }
    | none => s.bi.inputs.get i } }

theorem withInputs_ext {s : State} {v w : PerInput InputRec} (h : ∀ i, v.get i = w.get i) :
    ({ s with bi := { s.bi with inputs := v } } : State) = { s with bi := { s.bi with inputs := w } } := by
  rw [PerInput.ext_get h]

theorem withRequests_none (s : State) : s.withRequests (fun _ => none) = s :=
  withInputs_ext (s := s) (w := s.bi.inputs) fun i => get_buildInputs _ i

theorem request_eq (i : InputId) (src : Source) (s : State) :
    request i src s = s.withRequests fun j => if j = i then some src else none := by
  refine withInputs_ext fun j => ?_
  rw [PerInput.get_set, get_buildInputs]
  by_cases h : j = i <;> simp [h]

theorem withRequests_withRequests (f g : InputId → Option Source) (s : State) :
    (s.withRequests f).withRequests g = s.withRequests fun i => (g i).or (f i) := by
  refine withInputs_ext (s := s) fun i => ?_
  rw [get_buildInputs, get_buildInputs]
  cases hg : g i <;> cases hf : f i <;> simp [State.withRequests, hf, hg]

/-! ### The groups of a record -/

/-- The sources that the BKGD part gives the two roles (R160). -/
def bkgdSources (bkgd : Option SceneBkgd) (role : Role) : InputId → Option Source
  | .bga => bkgd.map fun b => if InputId.bga = pgmInput role then b.program else b.preset
  | .bgb => bkgd.map fun b => if InputId.bgb = pgmInput role then b.program else b.preset
  | .fill _ | .key _ => none

/-- The sources that the KEYS part gives the keyers that a test picks (R160, R161). -/
def keySources (keys : PerKeyer SceneKeyer) (pick : Keyer → Bool) : InputId → Option Source
  | .bga | .bgb => none
  | .fill k => if pick k then some (keys.get k).fill else none
  | .key k => if pick k then some (keys.get k).key else none

/-- The BKGD part of a DIRECT recall (R160). -/
def recallBkgd (bkgd : Option SceneBkgd) (s : State) : State :=
  match bkgd with
  | some b => request (pstInput s.tc.role) b.preset (request (pgmInput s.tc.role) b.program s)
  | none => s

theorem recallBkgd_eq (bkgd : Option SceneBkgd) (s : State) :
    recallBkgd bkgd s = s.withRequests (bkgdSources bkgd s.tc.role) := by
  cases bkgd with
  | none =>
    refine (withRequests_none s).symm.trans (congrArg (State.withRequests · s) (funext fun i => ?_))
    cases i <;> rfl
  | some b =>
    simp only [recallBkgd, request_eq, withRequests_withRequests]
    refine congrArg (State.withRequests · s) (funext fun i => ?_)
    cases s.tc.role <;> cases i <;> rfl

theorem recallSources_eq (keys : PerKeyer SceneKeyer) (k : Keyer) (s : State) :
    recallSources k (keys.get k) s = s.withRequests (keySources keys fun l => decide (l = k)) := by
  simp only [recallSources, request_eq, withRequests_withRequests]
  refine congrArg (State.withRequests · s) (funext fun i => ?_)
  cases i with
  | bga | bgb => rfl
  | fill l | key l => by_cases h : l = k <;> simp [keySources, h]

theorem keySources_or (keys : PerKeyer SceneKeyer) (p q : Keyer → Bool) (i : InputId) :
    (keySources keys q i).or (keySources keys p i) = keySources keys (fun k => p k || q k) i := by
  cases i with
  | bga | bgb => rfl
  | fill k | key k => cases hp : p k <;> cases hq : q k <;> simp [keySources, hp, hq]

theorem foldl_recallSources (keys : PerKeyer SceneKeyer) (ks : List Keyer) (s : State) :
    ks.foldl (fun s k => recallSources k (keys.get k) s) s =
      s.withRequests (keySources keys fun k => decide (k ∈ ks)) := by
  induction ks generalizing s with
  | nil =>
    refine (withRequests_none s).symm.trans (congrArg (State.withRequests · s) (funext fun i => ?_))
    cases i <;> rfl
  | cons k ks ih =>
    rw [List.foldl_cons, ih, recallSources_eq, withRequests_withRequests]
    refine congrArg (State.withRequests · s) (funext fun i => ?_)
    rw [keySources_or]
    simp only [List.mem_cons, Bool.decide_or]

/-- What the TRANS and ORDER parts make of the next copy, with the selection that the mode gives (R160, R161). -/
def recalledSetup (trans : Option SceneTrans) (order : Option KeyOrder) (sel : SceneTrans → LayerSet) (n : Setup) :
    Setup :=
  { n with
    selection := (trans.map sel).getD n.selection
    type := (trans.map SceneTrans.type).getD n.type
    rate := (trans.map SceneTrans.rate).getD n.rate
    wipe := (trans.map SceneTrans.wipe).getD n.wipe
    order := order.getD n.order }

/-- The TRANS and ORDER parts of a recall. -/
def recallTail (trans : Option SceneTrans) (order : Option KeyOrder) (sel : SceneTrans → LayerSet) (s : State) :
    State :=
  recallOrder order (match trans with
    | some t => recallTrans t (sel t) s
    | none => s)

theorem recallTail_eq (trans : Option SceneTrans) (order : Option KeyOrder) (sel : SceneTrans → LayerSet) (s : State) :
    recallTail trans order sel s = { s.withNext (recalledSetup trans order sel s.mes.next) with
      wg := { s.wg with reload := s.wg.reload || trans.isSome } } := by
  cases trans <;> cases order <;>
    simp [recallTail, recallOrder, recallTrans, recalledSetup, State.withNext, mapNext, writeWipe]

/-! ### A DIRECT recall (R160) -/

/-- The KEYS part of a DIRECT recall (R78, R160). -/
def recallKeys (keys : Option (PerKeyer SceneKeyer)) (background : Bool) (s : State) : State :=
  match keys with
  | some ks =>
    let s := Keyer.all.foldl (fun s k => recallSources k (ks.get k) s) s
    { s with tc := { s.tc with sceneCut := some (sceneCutOf s.rtg.raster ks background) } }
  | none => s

theorem recallKeys_eq (keys : Option (PerKeyer SceneKeyer)) (background : Bool) (s : State) :
    recallKeys keys background s = { s.withRequests (fun i => keys.bind fun ks => keySources ks (fun _ => true) i) with
      tc := { s.tc with sceneCut := match keys with
        | some ks => some (sceneCutOf s.rtg.raster ks background)
        | none => s.tc.sceneCut } } := by
  cases keys with
  | none => exact (withRequests_none s).symm
  | some ks =>
    have all : (fun k => decide (k ∈ Keyer.all)) = fun _ => true := funext fun k => by cases k <;> rfl
    simp only [recallKeys, foldl_recallSources, all]
    rfl

theorem recallDirect_eq (sc : Scene) (s : State) :
    let sourceOf := fun i => (sc.keys.bind fun ks => keySources ks (fun _ => true) i).or
      (bkgdSources sc.bkgd s.tc.role i)
    let cut := match sc.keys with
      | some ks => some (sceneCutOf s.rtg.raster ks sc.bkgd.isSome)
      | none => s.tc.sceneCut
    recallDirect sc s = { (s.withRequests sourceOf).withNext
        (recalledSetup sc.trans sc.order SceneTrans.selection s.mes.next) with
      tc := { s.tc with sceneCut := cut }
      wg := { s.wg with reload := s.wg.reload || sc.trans.isSome } } := by
  have stages : recallDirect sc s = recallTail sc.trans sc.order SceneTrans.selection
    (recallKeys sc.keys sc.bkgd.isSome (recallBkgd sc.bkgd s)) := rfl
  rw [stages, recallTail_eq, recallKeys_eq, recallBkgd_eq, withRequests_withRequests]
  rfl

theorem recallDirect_grant (p : Port) (sc : Scene) (s : State) :
    recallDirect sc (grant p s) = grant p (recallDirect sc s) := by
  rw [recallDirect_eq, recallDirect_eq]
  rfl

theorem recallClamps_grant (p : Port) (sc : Scene) (direct : Bool) (s : State) :
    recallClamps sc direct (grant p s) = recallClamps sc direct s := rfl

theorem recallResources_of_record {s : State} {slot : Byte} {sc : Scene} (found : recordAt s slot = some sc) :
    recallResources s slot = sceneResources sc := by rw [recallResources, found]

theorem recallResources_grant (p : Port) (s : State) (slot : Byte) :
    recallResources (grant p s) slot = recallResources s slot := rfl

/-- What SCENE RECALL is answered, with the record that its slot finds (R159). -/
theorem dealSceneRecall_delivered (slot mode : Byte) (p : Port) (s : State) :
    (dealSceneRecall slot mode p (grant p s)).delivered p = match recordAt s slot with
      | some sc =>
        if lockedOut s p (sceneResources sc) then s.answering p .locked
        else if mode ≠ 0 ∧ mode ≠ 1 then s.answering p .param
        else if s.tc.mode ≠ .idle then s.answering p .busy
        else (taken (if recallClamps sc (mode == 0#8) s then .clamped else .ok)
          (if mode == 0#8 then recallDirect sc (grant p s) else recallPreview sc (grant p s))).delivered p
      | none => s.answering p .param := by
  unfold dealSceneRecall
  rw [recallResources_grant, delivered_checked, recordAt_grant]
  cases found : recordAt s slot with
  | none =>
    have : lockedOut s p (recallResources s slot) = false := by rw [recallResources, found]; rfl
    simp [this]
  | some sc =>
    have named : (slotOf slot).isSome = true := by
      cases hs : slotOf slot with
      | none => simp [recordAt, hs] at found
      | some n => rfl
    simp only [recallResources_of_record found, recallInRange, named, boolOf_eq]
    by_cases other : mode ≠ 0 ∧ mode ≠ 1
    · rw [if_pos other, if_pos other]
      rfl
    · rw [if_neg other, if_neg other]
      simp only [delivered_ite]
      rfl

/-- The sources of a DIRECT recall, an input at a time. -/
theorem directSources_eq (sc : Scene) (role : Role) (i : InputId) :
    (sc.keys.bind fun ks => keySources ks (fun _ => true) i).or (bkgdSources sc.bkgd role i) = match i with
      | .bga | .bgb => sc.bkgd.map fun b => if i = pgmInput role then b.program else b.preset
      | .fill k => sc.keys.map fun ks => (ks.get k).fill
      | .key k => sc.keys.map fun ks => (ks.get k).key := by
  cases i <;> cases sc.keys <;> cases sc.bkgd <;> rfl

theorem recallClamps_direct (sc : Scene) (s : State) : recallClamps sc true s = match sc.keys with
    | some ks => Keyer.all.any fun k => cropBeyond s.rtg.raster (ks.get k).setup
    | none => false := by
  unfold recallClamps
  cases sc.keys <;> rfl

/-- Settles O31: a recall is its groups in turn, and each group writes what the statement says of it. -/
theorem directRecallHandsOverTheScene : Obligations.DirectRecallHandsOverTheScene := by
  refine ⟨fun p slot mode chk s h zero one => ?_, fun p slot chk s h => ⟨fun empty => ?_, fun sc found => ?_⟩⟩
  · refine exec_delivered h rfl rfl ((dealSceneRecall_delivered slot mode p s).trans ?_)
    cases recordAt s slot with
    | none => rfl
    | some sc =>
      dsimp only
      rw [if_pos (show mode ≠ 0 ∧ mode ≠ 1 from ⟨zero, one⟩)]
      exact (answering_ite ..).symm
  · refine exec_delivered h rfl rfl ((dealSceneRecall_delivered slot 0 p s).trans ?_)
    rw [empty]
  · refine exec_delivered h rfl rfl ((dealSceneRecall_delivered slot 0 p s).trans ?_)
    rw [found]
    dsimp only
    rw [if_neg (fun h : (0 : Byte) ≠ 0 ∧ (0 : Byte) ≠ 1 => h.1 rfl), show ((0 : Byte) == 0#8) = true from rfl,
      if_pos rfl,
      recallDirect_grant, recallDirect_eq, recallClamps_direct, delivered_taken]
    simp only [directSources_eq]
    refine ite_congr rfl (fun _ => rfl) fun _ => ite_congr rfl (fun _ => rfl) fun _ => ?_
    rfl

/-! ### A PREVIEW recall (R161) -/

/-- The state with the keyers that a test picks laid out as a scene has them (R161). -/
def State.laidOut (keys : PerKeyer SceneKeyer) (pick : Keyer → Bool) (s : State) : State :=
  (s.withRequests (keySources keys pick)).withNext { s.mes.next with
    keyers := .build fun k =>
      if pick k then clampCrop s.rtg.raster (keys.get k).setup else s.mes.next.keyers.get k }

@[simp] theorem laidOut_tc (keys : PerKeyer SceneKeyer) (pick : Keyer → Bool) (s : State) :
    (s.laidOut keys pick).tc = s.tc := rfl

/-- The state with other input records and other keyer setups in the next copy. -/
def State.withInputsAndKeyers (inputs : PerInput InputRec) (keyers : PerKeyer KeyerSetup) (s : State) : State :=
  { s with bi := { s.bi with inputs := inputs }, mes := { s.mes with next := { s.mes.next with keyers := keyers } } }

theorem withInputsAndKeyers_ext {s : State} {v v' : PerInput InputRec} {w w' : PerKeyer KeyerSetup}
    (inputs : ∀ i, v.get i = v'.get i) (keyers : ∀ k, w.get k = w'.get k) :
    s.withInputsAndKeyers v w = s.withInputsAndKeyers v' w' := by
  rw [PerInput.ext_get inputs, PerKeyer.ext_get keyers]

theorem laidOut_none (keys : PerKeyer SceneKeyer) (s : State) : s.laidOut keys (fun _ => false) = s := by
  refine withInputsAndKeyers_ext (s := s) (v' := s.bi.inputs) (w' := s.mes.next.keyers) (fun i => ?_)
    fun k => PerKeyer.get_build _ k
  rw [get_buildInputs]
  cases i <;> rfl

theorem laidOut_laidOut (keys : PerKeyer SceneKeyer) (p q : Keyer → Bool) (s : State) :
    (s.laidOut keys p).laidOut keys q = s.laidOut keys fun k => p k || q k := by
  refine withInputsAndKeyers_ext (s := s) (fun i => ?_) fun k => ?_
  · simp only [get_buildInputs, State.laidOut, State.withRequests, State.withNext]
    rw [← keySources_or]
    cases keySources keys q i <;> cases keySources keys p i <;> rfl
  · simp only [PerKeyer.get_build, State.laidOut, State.withRequests, State.withNext]
    by_cases hq : q k = true <;> by_cases hp : p k = true <;> simp [hp, hq]

theorem recallOffAir_eq (keys : PerKeyer SceneKeyer) (s : State) (k : Keyer) :
    recallOffAir keys s k = s.laidOut keys fun l => decide (l = k) && !s.tc.onAir.get k := by
  unfold recallOffAir
  cases onAir : s.tc.onAir.get k with
  | true => simp [laidOut_none]
  | false =>
    rw [recallSources_eq]
    refine withInputsAndKeyers_ext (s := s) (fun i => ?_) fun l => ?_
    · simp
    · rw [PerKeyer.get_set, PerKeyer.get_build]
      by_cases h : l = k
      · subst h
        simp
      · simp [h]
        rfl

theorem foldl_recallOffAir (keys : PerKeyer SceneKeyer) (ks : List Keyer) (s : State) :
    ks.foldl (recallOffAir keys) s = s.laidOut keys fun k => decide (k ∈ ks) && !s.tc.onAir.get k := by
  induction ks generalizing s with
  | nil => exact (laidOut_none keys s).symm
  | cons k ks ih =>
    rw [List.foldl_cons, ih, recallOffAir_eq, laidOut_laidOut]
    refine congrArg (State.laidOut keys · s) (funext fun l => ?_)
    by_cases head : l = k <;> simp +contextual [head]

/-- The KEYS part of a PREVIEW recall. -/
def recallOffAirs (keys : Option (PerKeyer SceneKeyer)) (s : State) : State :=
  match keys with
  | some ks => Keyer.all.foldl (recallOffAir ks) s
  | none => s

/-- The BKGD part of a PREVIEW recall. -/
def recallPreset (bkgd : Option SceneBkgd) (s : State) : State :=
  match bkgd with
  | some b => request (pstInput s.tc.role) b.program s
  | none => s

theorem recallPreset_eq (bkgd : Option SceneBkgd) (s : State) : recallPreset bkgd s =
    s.withRequests fun i => if i = pstInput s.tc.role then bkgd.map SceneBkgd.program else none := by
  cases bkgd with
  | none => simp [recallPreset, withRequests_none]
  | some b => exact request_eq _ _ s

theorem recallPreview_stages (sc : Scene) (s : State) :
    recallPreview sc s = recallTail sc.trans sc.order (fun _ => derivedSelection sc s)
      (recallOffAirs sc.keys (recallPreset sc.bkgd s)) := rfl

theorem recallOffAirs_eq (keys : Option (PerKeyer SceneKeyer)) (s : State) : recallOffAirs keys s =
    s.withInputsAndKeyers
      (buildInputs fun i => match keys.bind fun ks => keySources ks (fun k => !s.tc.onAir.get k) i with
        | some src => { s.bi.inputs.get i with requested := src }
        | none => s.bi.inputs.get i)
      (.build fun k => match keys.bind fun ks => if s.tc.onAir.get k then none else some (ks.get k) with
        | some sk => clampCrop s.rtg.raster sk.setup
        | none => s.mes.next.keyers.get k) := by
  cases keys with
  | none =>
    exact withInputsAndKeyers_ext (s := s) (v := s.bi.inputs) (w := s.mes.next.keyers)
      (fun i => (get_buildInputs _ i).symm) fun k => (PerKeyer.get_build _ k).symm
  | some ks =>
    have all : (fun k => decide (k ∈ Keyer.all) && !s.tc.onAir.get k) = fun k => !s.tc.onAir.get k :=
      funext fun k => by cases k <;> rfl
    simp only [recallOffAirs, foldl_recallOffAir, all]
    refine withInputsAndKeyers_ext (s := s) (fun i => rfl) fun k => ?_
    cases onAir : s.tc.onAir.get k <;> simp [onAir]

/-- The sources of a PREVIEW recall, an input at a time. -/
theorem previewSources_eq (sc : Scene) (s : State) (i : InputId) :
    (sc.keys.bind fun ks => keySources ks (fun k => !s.tc.onAir.get k) i).or
      (if i = pstInput s.tc.role then sc.bkgd.map SceneBkgd.program else none) =
    let taken := fun k : Keyer => sc.keys.bind fun ks =>
      if s.tc.onAir.get k then none else some (ks.get k)
    match i with
      | .bga | .bgb => if i = pstInput s.tc.role then sc.bkgd.map SceneBkgd.program else none
      | .fill k => (taken k).map SceneKeyer.fill
      | .key k => (taken k).map SceneKeyer.key := by
  have pst : ∀ k, pstInput s.tc.role ≠ .fill k ∧ pstInput s.tc.role ≠ .key k := fun k => by
    cases s.tc.role <;> exact ⟨nofun, nofun⟩
  cases i with
  | bga | bgb => cases sc.keys <;> rfl
  | fill k | key k =>
    cases keys : sc.keys with
    | none => simp [(pst k).1.symm, (pst k).2.symm]
    | some ks => cases onAir : s.tc.onAir.get k <;> simp [keySources, onAir, (pst k).1.symm, (pst k).2.symm]

theorem recallPreview_eq (sc : Scene) (s : State) :
    let taken := fun k : Keyer => sc.keys.bind fun ks =>
      if s.tc.onAir.get k then none else some (ks.get k)
    let sourceOf := fun i : InputId => match i with
      | .bga | .bgb => if i = pstInput s.tc.role then sc.bkgd.map SceneBkgd.program else none
      | .fill k => (taken k).map SceneKeyer.fill
      | .key k => (taken k).map SceneKeyer.key
    let keyers : PerKeyer KeyerSetup := .build fun k => match taken k with
      | some sk => clampCrop s.rtg.raster sk.setup
      | none => s.mes.next.keyers.get k
    recallPreview sc s = { (s.withRequests sourceOf).withNext { recalledSetup sc.trans sc.order
        (fun _ => derivedSelection sc s) s.mes.next with keyers := keyers } with
      wg := { s.wg with reload := s.wg.reload || sc.trans.isSome } } := by
  rw [recallPreview_stages, recallTail_eq, recallOffAirs_eq, recallPreset_eq]
  unfold State.withNext State.withInputsAndKeyers State.withRequests
  refine state_ext (bi := congrArg (fun v => { s.bi with inputs := v }) (PerInput.ext_get fun i => ?_)) (mes := rfl)
  simp only [get_buildInputs, ← previewSources_eq]
  cases (sc.keys.bind fun ks => keySources ks (fun k => !s.tc.onAir.get k) i) <;>
    cases (if i = pstInput s.tc.role then sc.bkgd.map SceneBkgd.program else none) <;> rfl

theorem recallPreview_grant (p : Port) (sc : Scene) (s : State) :
    recallPreview sc (grant p s) = grant p (recallPreview sc s) := by
  rw [recallPreview_eq, recallPreview_eq]
  rfl

theorem recallClamps_preview (sc : Scene) (s : State) : recallClamps sc false s = Keyer.all.any fun k =>
    match sc.keys.bind fun ks => if s.tc.onAir.get k then none else some (ks.get k) with
    | some sk => cropBeyond s.rtg.raster sk.setup
    | none => false := by
  unfold recallClamps
  cases sc.keys with
  | none => rfl
  | some ks =>
    refine congrArg Keyer.all.any (funext fun k => ?_)
    cases s.tc.onAir.get k <;> simp

theorem derivedSelection_eq (sc : Scene) (s : State) :
    let differs : LayerSet :=
      ⟨(sc.bkgd.map fun b => b.program != (s.input (pgmInput s.tc.role)).live).getD false,
        .build fun k => (sc.keys.map fun ks => (ks.get k).onAir != s.tc.onAir.get k).getD false⟩
    derivedSelection sc s = if differs.nonEmpty then differs else ⟨true, .const false⟩ := by
  unfold derivedSelection
  cases sc.bkgd <;> cases sc.keys <;> rfl

/-- Settles O32, in the same way; the derived selection is taken before the groups write. -/
theorem previewRecallLaysOutTheScene : Obligations.PreviewRecallLaysOutTheScene := by
  refine fun p slot chk s h => ⟨fun empty => ?_, fun sc found => ?_⟩
  · refine exec_delivered h rfl rfl ((dealSceneRecall_delivered slot 1 p s).trans ?_)
    rw [empty]
  · refine exec_delivered h rfl rfl ((dealSceneRecall_delivered slot 1 p s).trans ?_)
    rw [found]
    dsimp only
    rw [if_neg (fun h : (1 : Byte) ≠ 0 ∧ (1 : Byte) ≠ 1 => h.2 rfl), show ((1 : Byte) == 0#8) = false from rfl,
      if_neg Bool.false_ne_true, recallPreview_grant, recallPreview_eq, recallClamps_preview, delivered_taken]
    refine ite_congr rfl (fun _ => rfl) fun _ => ite_congr rfl (fun _ => rfl) fun _ => ?_
    have selection : recalledSetup sc.trans sc.order (fun _ => derivedSelection sc s) s.mes.next =
        { s.mes.next with
          selection := if sc.trans.isSome then derivedSelection sc s else s.mes.next.selection
          type := (sc.trans.map SceneTrans.type).getD s.mes.next.type
          rate := (sc.trans.map SceneTrans.rate).getD s.mes.next.rate
          wipe := (sc.trans.map SceneTrans.wipe).getD s.mes.next.wipe
          order := sc.order.getD s.mes.next.order } := by
      cases sc.trans <;> rfl
    rw [selection, derivedSelection_eq]
    rfl

/-! ### CUE (R143) -/

/-- What CUE is answered, with the command that its bytes spell (R143). -/
theorem dealCue_delivered (target : Word) (code : Byte) (args : List Byte) (p : Port) (s : State) :
    (dealCue target code args p (grant p s)).delivered p = match parseCue code args with
      | none => s.answering p .param
      | some c =>
        if lockedOut s p (cueResources s c) then s.answering p .locked
        else if cueInRange c && !tooFar (distance s.rtg.counter target) then
          if Config.cueCapacity ≤ s.cq.entries.length then s.answering p .full
          else if tooLate (distance s.rtg.counter target) then s.answering p .late
          else (enqueue target code args p s).answering p .ok (be16 (nextFreeTag s.cq))
        else s.answering p .param := by
  unfold dealCue
  cases parseCue code args with
  | none => rfl
  | some c =>
    simp only [delivered_checked, delivered_ite, cueResources_grant]
    rfl

theorem tooFar_iff (d : Nat) : tooFar d = true ↔ 65536 ≤ d ∧ d ≤ 2147483648 := by simp [tooFar]

theorem tooLate_iff (d : Nat) : tooLate d = true ↔ d = 0 ∨ 2147483648 < d := by simp [tooLate]

theorem enqueue_eq (target : Word) (code : Byte) (args : List Byte) (p : Port) (s : State) :
    enqueue target code args p s = { s with cq := { s.cq with
      entries := insertCue s.rtg.counter ⟨nextFreeTag s.cq, p, target, code, args⟩ s.cq.entries
      nextTag := tagAfter (nextFreeTag s.cq) } } := rfl

theorem dealCue_queued {target : Word} {code : Byte} {args : List Byte} {p : Port} {s : State} {c : CueCommand}
    (parsed : parseCue code args = some c) (free : lockedOut s p (cueResources s c) = false)
    (range : cueInRange c = true)
    (near : ¬(65536 ≤ (target - s.rtg.counter).toNat ∧ (target - s.rtg.counter).toNat ≤ 2147483648)) :
    (dealCue target code args p (grant p s)).delivered p =
      if Config.cueCapacity ≤ s.cq.entries.length then s.answering p .full
      else if tooLate (distance s.rtg.counter target) then s.answering p .late
      else (enqueue target code args p s).answering p .ok (be16 (nextFreeTag s.cq)) := by
  have notFar : tooFar (distance s.rtg.counter target) = false := Bool.eq_false_iff.2 (mt (tooFar_iff _).1 near)
  rw [dealCue_delivered, parsed]
  simp only [free, range, notFar]
  rfl

/-- Settles O24: the entry splits the queue at its place, and its tag is the first free one. -/
theorem cueIsQueuedByDistance : Obligations.CueIsQueuedByDistance := by
  intro p target code body s h inv
  refine ⟨fun none => ?_, fun cmd parsed => ⟨fun locked => ?_, fun free => ⟨fun bad => ?_, fun range near =>
    ⟨fun full => ?_, fun room late => ?_, fun room ahead notLate => ?_⟩⟩⟩⟩
  · refine exec_sizedFrame_delivered h rfl rfl ((dealCue_delivered ..).trans ?_)
    rw [none]
  · refine exec_sizedFrame_delivered h rfl rfl ((dealCue_delivered ..).trans ?_)
    rw [parsed]
    exact if_pos locked
  · refine exec_sizedFrame_delivered h rfl rfl ((dealCue_delivered ..).trans ?_)
    have refused : ¬(cueInRange cmd && !tooFar (distance s.rtg.counter target)) = true := fun ok => by
      obtain ⟨range, near⟩ := Bool.and_eq_true_iff.1 ok
      refine bad.elim (fun bad => Bool.noConfusion (bad.symm.trans range)) fun far => ?_
      rw [(tooFar_iff (distance s.rtg.counter target)).2 far] at near
      exact Bool.noConfusion near
    rw [parsed]
    exact (if_neg (Bool.eq_false_iff.1 free)).trans (if_neg refused)
  · refine exec_sizedFrame_delivered h rfl rfl ((dealCue_queued parsed free range near).trans ?_)
    exact if_pos full.ge
  · refine exec_sizedFrame_delivered h rfl rfl ((dealCue_queued parsed free range near).trans ?_)
    exact (if_neg (Nat.not_le.2 room)).trans (if_pos ((tooLate_iff _).2 late))
  · obtain ⟨front, back, parts, inserted, before, after⟩ := insertCue_split s.rtg.counter
      ⟨nextFreeTag s.cq, p, target, code, body.take (embeddedLength code)⟩ s.cq.entries
    obtain ⟨tries, found, passed, fresh⟩ := nextFreeTag_first inv.nextTag inv.count
    refine ⟨nextFreeTag s.cq, front, back, tries, parts, before, after inv.sorted, nextFreeTag_ne_zero inv.nextTag,
      fresh, found, passed, exec_sizedFrame_delivered h rfl rfl ((dealCue_queued parsed free range near).trans ?_)⟩
    have hasRoom : ¬Config.cueCapacity ≤ s.cq.entries.length := Nat.not_le.2 room
    have timely : ¬tooLate (distance s.rtg.counter target) = true :=
      mt (tooLate_iff _).1 (not_or.2 ⟨ahead, Nat.not_lt.2 notLate⟩)
    rw [if_neg hasRoom, if_neg timely, enqueue_eq, inserted]
    rfl

end Sys2Proof.Machine
end

section
/-!
SUPPORT. A released cue and its port's command (section 9.3): the twelve commands that a cue carries neither read nor
write the ports or the queue, so that what they make of the engine does not depend on them.
-/

namespace Sys2Proof.Machine

/-- The state with other ports, another last granted port and another cue queue. -/
def State.withPorts (ports : PerPort PortState) (last : Port) (queue : Cq) (s : State) : State :=
  { s with ports := ports, lastGranted := last, cq := queue }

section WithPorts
variable (P : PerPort PortState) (L : Port) (Q : Cq)

theorem checked_withPorts {p : Port} {rs : List Resource} {ok : Bool} {s : State} {rest rest' : Answer}
    (h : rest' = rest.onState (State.withPorts P L Q)) :
    checked p rs ok (s.withPorts P L Q) rest' = (checked p rs ok s rest).onState (State.withPorts P L Q) := by
  have locked : lockedOut (s.withPorts P L Q) p rs = lockedOut s p rs := rfl
  unfold checked
  rw [locked, h]
  cases lockedOut s p rs <;> cases ok <;> rfl

theorem unlessSame_withPorts {b b' : Bool} {s t t' : State} (same : b' = b) (ht : t' = t.withPorts P L Q) :
    unlessSame b' t' (s.withPorts P L Q) = (unlessSame b t s).onState (State.withPorts P L Q) := by
  subst same ht
  cases b' <;> rfl

theorem ite_withPorts {c : Prop} [Decidable c] {a b a' b' : Answer} (ha : a' = a.onState (State.withPorts P L Q))
    (hb : b' = b.onState (State.withPorts P L Q)) :
    (if c then a' else b') = (if c then a else b).onState (State.withPorts P L Q) := by
  subst ha hb
  split <;> rfl

theorem recallDirect_withPorts (sc : Scene) (s : State) :
    recallDirect sc (s.withPorts P L Q) = (recallDirect sc s).withPorts P L Q := by
  rw [recallDirect_eq, recallDirect_eq]
  rfl

theorem recallPreview_withPorts (sc : Scene) (s : State) :
    recallPreview sc (s.withPorts P L Q) = (recallPreview sc s).withPorts P L Q := by
  rw [recallPreview_eq, recallPreview_eq]
  rfl

/-- A command that a cue carries makes the same of the engine whatever the ports and the queue are. -/
theorem dealCueCommand_withPorts (c : CueCommand) (p : Port) (s : State) :
    dealCueCommand c p (s.withPorts P L Q) = (dealCueCommand c p s).onState (State.withPorts P L Q) := by
  cases c with
  | selectBus bus src =>
    refine checked_withPorts P L Q ?_
    cases busOf bus with
    | none => rfl
    | some b =>
      cases sourceOf src with
      | none => rfl
      | some x => exact ite_withPorts P L Q rfl (unlessSame_withPorts P L Q rfl rfl)
  | setNext layers type =>
    refine checked_withPorts P L Q ?_
    cases selectionOf layers with
    | none => rfl
    | some sel =>
      cases typeOf type with
      | none => rfl
      | some t => exact unlessSame_withPorts P L Q rfl rfl
  | setRate rate =>
    refine checked_withPorts P L Q ?_
    exact ite_withPorts P L Q rfl (unlessSame_withPorts P L Q rfl rfl)
  | keySetup k f clip gain op =>
    refine checked_withPorts P L Q ?_
    cases keyerOf k with
    | none => rfl
    | some k => exact ite_withPorts P L Q rfl (unlessSame_withPorts P L Q rfl rfl)
  | keyCrop k e l r t b =>
    refine checked_withPorts P L Q ?_
    cases keyerOf k with
    | none => rfl
    | some k =>
      cases boolOf e with
      | none => rfl
      | some on => exact ite_withPorts P L Q rfl (unlessSame_withPorts P L Q rfl rfl)
  | keyOrder a b c d =>
    refine checked_withPorts P L Q ?_
    cases orderOf a b c d with
    | none => rfl
    | some o => exact unlessSame_withPorts P L Q rfl rfl
  | wipeSetup pat e rh rv cx cy f =>
    refine checked_withPorts P L Q ?_
    cases wipeOf pat e rh rv cx cy f with
    | none => rfl
    | some w => exact unlessSame_withPorts P L Q rfl rfl
  | matteSet m y cb cr =>
    refine checked_withPorts P L Q (congrArg (taken .ok) ?_)
    dsimp only
    split <;> rfl
  | cut =>
    refine checked_withPorts P L Q ?_
    cases main : s.tc.main <;> simp [State.withPorts, main] <;> rfl
  | auto =>
    refine checked_withPorts P L Q ?_
    cases mode : s.tc.mode <;> cases main : s.tc.main <;> simp [State.withPorts, mode, main] <;> rfl
  | keyCut k t =>
    refine checked_withPorts P L Q ?_
    cases keyerOf k with
    | none => rfl
    | some k =>
      cases boolOf t with
      | none => rfl
      | some on => exact ite_withPorts P L Q rfl (unlessSame_withPorts P L Q rfl rfl)
  | sceneRecall slot mode =>
    refine checked_withPorts P L Q ?_
    have record : recordAt (s.withPorts P L Q) slot = recordAt s slot := rfl
    rw [record]
    cases recordAt s slot with
    | none => rfl
    | some sc =>
      refine ite_withPorts P L Q rfl ?_
      have clamps : recallClamps sc (mode == 0#8) (s.withPorts P L Q) = recallClamps sc (mode == 0#8) s := rfl
      dsimp only
      rw [clamps, recallDirect_withPorts, recallPreview_withPorts]
      cases mode == 0#8 <;> rfl

end WithPorts

theorem asRow_frame (c : CueCommand) (p : Port) :
    ∃ covered, commandFrameOf (c.asRow p) = some ⟨p, covered, crc8 covered⟩
      ∧ ∀ s, exec (c.asRow p) s = .next (commandFrame p covered (crc8 covered) (dealCueCommand c p) s) := by
  cases c <;> exact ⟨_, rfl, fun _ => rfl⟩

theorem onState_withPorts_self (c : CueCommand) (p : Port) (s : State) :
    (dealCueCommand c p s).state.withPorts s.ports s.lastGranted s.cq = (dealCueCommand c p s).state :=
  (congrArg Answer.state (dealCueCommand_withPorts s.ports s.lastGranted s.cq c p s)).symm

/-- The first due entry is the one released (R145). -/
theorem releaseFirst_eq {s : State} {front back : List CueEntry} {e : CueEntry}
    (queue : s.cq.entries = front ++ e :: back) (before : ∀ x ∈ front, x.target ≠ s.rtg.counter)
    (due : e.target = s.rtg.counter) : releaseFirst s = releaseEntry (setEntries (front ++ back) s) e := by
  have notDue : ∀ x ∈ front, ¬isDue s x = true := fun x hx => by simpa [isDue] using before x hx
  have isDue_ : isDue s e = true := by simpa [isDue] using due
  have found : s.cq.entries.find? (isDue s) = some e := by
    rw [queue, List.find?_append, List.find?_eq_none.2 notDue]
    simp [isDue_]
  have left : s.cq.entries.eraseP (isDue s) = front ++ back := by
    rw [queue, List.eraseP_append_right _ notDue]
    simp [isDue_]
  rw [releaseFirst, found, left]

/-- Settles O27: the port’s own run and the release deal with the same command, and only the ports tell them apart. -/
theorem releasedCueActsAsItsPortsCommand : Obligations.ReleasedCueActsAsItsPortsCommand := by
  intro s front back e cmd live queue before due parsed
  let left : State := { s with cq := { s.cq with entries := front ++ back } }
  let ready : State := left.onPorts fun q ps =>
    { ps with
      phase := if q = e.owner then .receiving else ps.phase
      streaming := if q = e.owner then false else ps.streaming
      waiting := [] }
  obtain ⟨covered, frame, row⟩ := asRow_frame cmd e.owner
  have accepted : Accepted (cmd.asRow e.owner) e.owner ready := by
    refine ⟨⟨live, ?_, ?_⟩, fun q => ?_, covered, frame⟩ <;> simp [ready, State.onPorts]
  let a := dealCueCommand cmd e.owner left
  have dealt : dealCueCommand cmd e.owner (grant e.owner ready) =
      a.onState (State.withPorts ready.ports e.owner left.cq) :=
    dealCueCommand_withPorts ready.ports e.owner left.cq cmd e.owner left
  have released : exec .cueRelease s =
      .next (if a.outcome.refused then recordFailure e a.outcome left else a.state) := by
    show Host.Outcome.next (unlessReset releaseFirst s) = _
    have answer : releaseAnswer e left = a := by rw [releaseAnswer, parsed]
    rw [unlessReset, live, if_neg Bool.false_ne_true, releaseFirst_eq queue before due, ← answer]
    rfl
  refine ⟨_, a.outcome, a.data, exec_delivered accepted frame (row _) (congrArg _ dealt), ?_, released.trans ?_⟩
  · simp [Answer.delivered, Answer.onState]
  · refine congrArg Host.Outcome.next (ite_congr rfl (fun _ => rfl) fun _ => ?_)
    exact (onState_withPorts_self cmd e.owner left).symm

end Sys2Proof.Machine
end

section
/-!
SUPPORT. The scene record and its bytes (R183): each field's code reads back as the field, and each field that a byte
spells has that byte as its code.
-/

namespace Sys2Proof.Machine

/-! ### Codes of single bytes -/

theorem byteOf_toNat (b : Byte) : byteOf b.toNat = b := by simp [byteOf]

theorem toNat_byteOf {n : Nat} (h : n < 256) : (byteOf n).toNat = n := by
  rw [byteOf, BitVec.toNat_ofNat]
  exact Nat.mod_eq_of_lt h

theorem sourceOf_sourceByte (src : Source) : sourceOf (sourceByte src) = some src := by
  have small : (sourceByte src).toNat = src.val := toNat_byteOf (by omega)
  simp [sourceOf, small]

theorem sourceByte_of_sourceOf {b : Byte} {src : Source} (h : sourceOf b = some src) : sourceByte src = b := by
  unfold sourceOf at h
  split at h <;> cases h
  exact byteOf_toNat b

theorem layersOf_layersCode (l : LayerSet) : layersOf (layersCode l) = some l := by
  obtain ⟨bkgd, k1, k2, k3, k4⟩ := l
  cases bkgd <;> cases k1 <;> cases k2 <;> cases k3 <;> cases k4 <;> rfl

/-- Five bits and their sum. -/
theorem layersCode_bits (b : Byte) (h : b.toNat < 32) :
    layersCode ⟨b.getLsbD 0, ⟨b.getLsbD 1, b.getLsbD 2, b.getLsbD 3, b.getLsbD 4⟩⟩ = b := by
  have each : ∀ n : Fin 32, layersCode ⟨(byteOf n).getLsbD 0, ⟨(byteOf n).getLsbD 1, (byteOf n).getLsbD 2,
    (byteOf n).getLsbD 3, (byteOf n).getLsbD 4⟩⟩ = byteOf n := by decide
  simpa [byteOf_toNat] using each ⟨b.toNat, h⟩

theorem selectionOf_layersCode {l : LayerSet} (h : l.nonEmpty = true) : selectionOf (layersCode l) = some l := by
  simp [selectionOf, layersOf_layersCode, Option.filter, h]

theorem layersCode_of_selectionOf {b : Byte} {l : LayerSet} (h : selectionOf b = some l) : layersCode l = b := by
  obtain ⟨read, -⟩ := Option.filter_eq_some_iff.1 h
  unfold layersOf at read
  split at read <;> cases read
  next small => exact layersCode_bits b small

theorem typeOf_typeCode (t : TransType) : typeOf (typeCode t) = some t := by cases t <;> rfl

theorem typeCode_of_typeOf {b : Byte} {t : TransType} (h : typeOf b = some t) : typeCode t = b := by
  unfold typeOf at h
  split at h <;> cases h
  all_goals next e => exact BitVec.eq_of_toNat_eq e.symm

theorem patternOf_patternCode (p : Pattern) : patternOf (patternCode p) = some p := by cases p <;> rfl

theorem patternCode_of_patternOf {b : Byte} {p : Pattern} (h : patternOf b = some p) : patternCode p = b := by
  unfold patternOf at h
  split at h <;> cases h
  all_goals next e => exact BitVec.eq_of_toNat_eq e.symm

theorem keyerOf_keyerNumber (k : Keyer) : keyerOf (byteOf (keyerNumber k)) = some k := by cases k <;> rfl

theorem keyerNumber_of_keyerOf {b : Byte} {k : Keyer} (h : keyerOf b = some k) : byteOf (keyerNumber k) = b := by
  unfold keyerOf at h
  split at h <;> cases h
  all_goals next e => exact BitVec.eq_of_toNat_eq e.symm

/-! ### Two bytes -/

theorem half_ofNat_toNat {n : Nat} (h : n < 65536) :
    (half ((BitVec.ofNat 16 n).extractLsb' 8 8) ((BitVec.ofNat 16 n).extractLsb' 0 8)).toNat = n := by
  rw [half_be16, BitVec.toNat_ofNat]
  exact Nat.mod_eq_of_lt h

theorem half_toNat (hi lo : Byte) : (half hi lo).toNat = hi.toNat * 256 + lo.toNat := by
  rw [half, BitVec.toNat_append, ← Nat.shiftLeft_add_eq_or_of_lt lo.isLt, Nat.shiftLeft_eq]

theorem be16n_half (hi lo : Byte) : be16n (half hi lo).toNat = [hi, lo] := by
  have low := lo.isLt
  have high := hi.isLt
  have hiByte : (half hi lo).extractLsb' 8 8 = hi := BitVec.eq_of_toNat_eq (by
    rw [BitVec.extractLsb'_toNat, half_toNat, Nat.shiftRight_eq_div_pow]
    omega)
  have loByte : (half hi lo).extractLsb' 0 8 = lo := BitVec.eq_of_toNat_eq (by
    rw [BitVec.extractLsb'_toNat, half_toNat, Nat.shiftRight_eq_div_pow]
    omega)
  rw [be16n, BitVec.ofNat_toNat, BitVec.setWidth_eq, be16, hiByte, loByte]

/-! ### Flags -/

theorem nibble_bits (b : Byte) (h : b.toNat < 16) :
    byteOf ((b.getLsbD 0).toNat + 2 * (b.getLsbD 1).toNat + 4 * (b.getLsbD 2).toNat + 8 * (b.getLsbD 3).toNat) = b := by
  have each : ∀ n : Fin 16, byteOf (((byteOf n).getLsbD 0).toNat + 2 * ((byteOf n).getLsbD 1).toNat
    + 4 * ((byteOf n).getLsbD 2).toNat + 8 * ((byteOf n).getLsbD 3).toNat) = byteOf n := by decide
  simpa [byteOf_toNat] using each ⟨b.toNat, h⟩

/-- Four flags and the byte that carries them. -/
theorem bits_nibble (a b c d : Bool) :
    let f := byteOf (a.toNat + 2 * b.toNat + 4 * c.toNat + 8 * d.toNat)
    f.toNat < 16 ∧ f.getLsbD 0 = a ∧ f.getLsbD 1 = b ∧ f.getLsbD 2 = c ∧ f.getLsbD 3 = d := by
  cases a <;> cases b <;> cases c <;> cases d <;> decide

theorem pair_bits (b : Byte) (h : b.toNat < 4) : byteOf ((b.getLsbD 0).toNat + 2 * (b.getLsbD 1).toNat) = b := by
  have each : ∀ n : Fin 4, byteOf (((byteOf n).getLsbD 0).toNat + 2 * ((byteOf n).getLsbD 1).toNat) = byteOf n := by
    decide
  simpa [byteOf_toNat] using each ⟨b.toNat, h⟩

/-- Two flags and the byte that carries them. -/
theorem bits_pair (a b : Bool) :
    let f := byteOf (a.toNat + 2 * b.toNat)
    f.toNat < 4 ∧ f.getLsbD 0 = a ∧ f.getLsbD 1 = b := by
  cases a <;> cases b <;> decide

theorem keyTypeOf_isLinear (t : KeyType) : keyTypeOf t.isLinear = t := by cases t <;> rfl

theorem isLinear_keyTypeOf (b : Bool) : (keyTypeOf b).isLinear = b := by cases b <;> rfl

/-! ### The parts -/

theorem sceneKeyerOf_bytes {k : SceneKeyer} (inv : KeyerInv 3840 2160 k.setup) :
    sceneKeyerOf (sceneKeyerBytes k) = some k := by
  obtain ⟨fill, key, ⟨type, invert, clip, gain, opacity, crop, left, right, top, bottom⟩, onAir⟩ := k
  obtain ⟨hclip, hgain, hopacity, hleft, hright, htop, hbottom⟩ := inv
  dsimp only at *
  obtain ⟨small, b0, b1, b2, b3⟩ := bits_nibble type.isLinear invert crop onAir
  simp only [sceneKeyerBytes, be16n, be16, List.cons_append, List.nil_append, sceneKeyerOf, sourceOf_sourceByte,
    b0, b1, b2, b3, small, half_ofNat_toNat (n := clip) (by omega), half_ofNat_toNat (n := gain) (by omega),
    half_ofNat_toNat (n := opacity) (by omega), half_ofNat_toNat (n := left) (by omega),
    half_ofNat_toNat (n := right) (by omega), half_ofNat_toNat (n := top) (by omega),
    half_ofNat_toNat (n := bottom) (by omega), keyTypeOf_isLinear]
  exact if_pos ⟨trivial, hclip, hgain, hopacity, hleft, hright, htop, hbottom⟩

theorem sceneKeyerBytes_of {bytes : List Byte} {k : SceneKeyer} (h : sceneKeyerOf bytes = some k) :
    sceneKeyerBytes k = bytes := by
  unfold sceneKeyerOf at h
  split at h
  · split at h
    · next fill key =>
      split at h <;> cases h
      next inRange =>
        simp only [sceneKeyerBytes, isLinear_keyTypeOf, nibble_bits _ inRange.1, sourceByte_of_sourceOf fill,
          sourceByte_of_sourceOf key, be16n_half]
        rfl
    · cases h
  · cases h

/-- The 2 bytes of the BKGD part. -/
def sceneBkgdBytes (b : SceneBkgd) : List Byte := [sourceByte b.program, sourceByte b.preset]

theorem sceneBkgdOf_bytes (b : SceneBkgd) : sceneBkgdOf (sceneBkgdBytes b) = some b := by
  simp [sceneBkgdBytes, sceneBkgdOf, sourceOf_sourceByte]

theorem sceneBkgdBytes_of {bytes : List Byte} {b : SceneBkgd} (h : sceneBkgdOf bytes = some b) :
    sceneBkgdBytes b = bytes := by
  unfold sceneBkgdOf at h
  split at h
  · split at h <;> cases h
    next program preset => rw [sceneBkgdBytes, sourceByte_of_sourceOf program, sourceByte_of_sourceOf preset]
  · cases h

theorem sceneKeyerBytes_length (k : SceneKeyer) : (sceneKeyerBytes k).length = 17 := rfl

/-- The 68 bytes of the KEYS part. -/
def sceneKeysBytes (ks : PerKeyer SceneKeyer) : List Byte :=
  sceneKeyerBytes ks.k1 ++ sceneKeyerBytes ks.k2 ++ sceneKeyerBytes ks.k3 ++ sceneKeyerBytes ks.k4

theorem sceneKeysOf_bytes {ks : PerKeyer SceneKeyer} (inv : ∀ k, KeyerInv 3840 2160 (ks.get k).setup) :
    sceneKeysOf (sceneKeysBytes ks) = some ks := by
  obtain ⟨a, b, c, d⟩ := ks
  have h1 : sceneKeyerOf (sceneKeyerBytes a) = some a := sceneKeyerOf_bytes (inv .k1)
  have h2 : sceneKeyerOf (sceneKeyerBytes b) = some b := sceneKeyerOf_bytes (inv .k2)
  have h3 : sceneKeyerOf (sceneKeyerBytes c) = some c := sceneKeyerOf_bytes (inv .k3)
  have h4 : sceneKeyerOf (sceneKeyerBytes d) = some d := sceneKeyerOf_bytes (inv .k4)
  have parts : sceneKeysOf (sceneKeysBytes ⟨a, b, c, d⟩) = match sceneKeyerOf (sceneKeyerBytes a),
      sceneKeyerOf (sceneKeyerBytes b), sceneKeyerOf (sceneKeyerBytes c), sceneKeyerOf (sceneKeyerBytes d) with
    | some a, some b, some c, some d => some ⟨a, b, c, d⟩
    | _, _, _, _ => none := rfl
  rw [parts, h1, h2, h3, h4]

theorem sceneKeysBytes_of {bytes : List Byte} {ks : PerKeyer SceneKeyer} (h : sceneKeysOf bytes = some ks) :
    sceneKeysBytes ks = bytes := by
  unfold sceneKeysOf at h
  split at h <;> cases h
  next ha hb hc hd =>
    rw [sceneKeysBytes, sceneKeyerBytes_of ha, sceneKeyerBytes_of hb, sceneKeyerBytes_of hc, sceneKeyerBytes_of hd]
    have third : bytes.drop 34 = (bytes.drop 17).drop 17 := by rw [List.drop_drop]
    have fourth : bytes.drop 51 = ((bytes.drop 17).drop 17).drop 17 := by rw [List.drop_drop, List.drop_drop]
    rw [third, fourth, List.append_assoc, List.append_assoc, List.take_append_drop, List.take_append_drop,
      List.take_append_drop]

theorem wipeOf_bytes {w : WipeSetup} (inv : WipeInv w) : ∃ pat e1 e0 rh rv x1 x0 y1 y0 f,
    wipeBytes w = [pat, e1, e0, rh, rv, x1, x0, y1, y0, f]
      ∧ wipeOf pat (half e1 e0) rh rv (half x1 x0) (half y1 y0) f = some w := by
  refine ⟨_, _, _, _, _, _, _, _, _, _, rfl, ?_⟩
  obtain ⟨pattern, softness, rh, rv, cx, cy, reverse, flipFlop⟩ := w
  obtain ⟨hsoft, ⟨hrh, hrh'⟩, ⟨hrv, hrv'⟩, hcx, hcy⟩ := inv
  dsimp only at *
  obtain ⟨small, b0, b1⟩ := bits_pair reverse flipFlop
  have ranges : softness ≤ 1024 ∧ 1 ≤ rh ∧ rh ≤ 16 ∧ 1 ≤ rv ∧ rv ≤ 16 ∧ cx ≤ 4095 ∧ cy ≤ 4095
      ∧ (byteOf (reverse.toNat + 2 * flipFlop.toNat)).toNat < 4 := ⟨hsoft, hrh, hrh', hrv, hrv', hcx, hcy, small⟩
  simp only [wipeOf, patternOf_patternCode, b0, b1, half_ofNat_toNat (n := softness) (by omega),
    half_ofNat_toNat (n := cx) (by omega), half_ofNat_toNat (n := cy) (by omega), toNat_byteOf (n := rh) (by omega),
    toNat_byteOf (n := rv) (by omega)]
  exact if_pos ranges

theorem wipeBytes_of {pat rh rv f e1 e0 x1 x0 y1 y0 : Byte} {w : WipeSetup}
    (h : wipeOf pat (half e1 e0) rh rv (half x1 x0) (half y1 y0) f = some w) :
    wipeBytes w = [pat, e1, e0, rh, rv, x1, x0, y1, y0, f] := by
  unfold wipeOf at h
  split at h
  · cases h
  · next pattern =>
    split at h <;> cases h
    next inRange =>
      obtain ⟨-, -, -, -, -, -, -, small⟩ := inRange
      simp only [wipeBytes, patternCode_of_patternOf pattern, be16n_half, byteOf_toNat, pair_bits _ small]
      rfl

theorem orderOf_bytes {o : KeyOrder} (nodup : o.toList.Nodup) : sceneOrderOf (orderBytes o) = some o := by
  obtain ⟨a, b, c, d⟩ := o
  have distinct : a ≠ b ∧ a ≠ c ∧ a ≠ d ∧ b ≠ c ∧ b ≠ d ∧ c ≠ d := by
    simpa [KeyOrder.toList, and_assoc] using nodup
  simp only [orderBytes, KeyOrder.toList, List.map_cons, List.map_nil, sceneOrderOf, orderOf, keyerOf_keyerNumber]
  exact if_pos distinct

theorem orderBytes_of {bytes : List Byte} {o : KeyOrder} (h : sceneOrderOf bytes = some o) : orderBytes o = bytes := by
  unfold sceneOrderOf at h
  split at h
  · unfold orderOf at h
    split at h
    · next first second third fourth =>
      split at h <;> cases h
      simp [orderBytes, KeyOrder.toList, keyerNumber_of_keyerOf first, keyerNumber_of_keyerOf second,
        keyerNumber_of_keyerOf third, keyerNumber_of_keyerOf fourth]
    · cases h
  · cases h

/-- The 14 bytes of the TRANS part. -/
def sceneTransBytes (t : SceneTrans) : List Byte :=
  [layersCode t.selection, typeCode t.type] ++ be16n t.rate ++ wipeBytes t.wipe

theorem sceneTransOf_bytes {t : SceneTrans} (selection : t.selection.nonEmpty = true) (rate : t.rate ≤ 999)
    (wipe : WipeInv t.wipe) : sceneTransOf (sceneTransBytes t) = some t := by
  obtain ⟨pat, e1, e0, rh, rv, x1, x0, y1, y0, f, bytes, read⟩ := wipeOf_bytes wipe
  simp only [sceneTransBytes, bytes, be16n, be16, List.cons_append, List.nil_append, sceneTransOf,
    selectionOf_layersCode selection, typeOf_typeCode, read, half_ofNat_toNat (n := t.rate) (by omega)]
  exact if_pos rate

theorem sceneTransBytes_of {bytes : List Byte} {t : SceneTrans} (h : sceneTransOf bytes = some t) :
    sceneTransBytes t = bytes := by
  unfold sceneTransOf at h
  split at h
  · split at h
    · next selection type wipe =>
      split at h <;> cases h
      simp only [sceneTransBytes, layersCode_of_selectionOf selection, typeCode_of_typeOf type, be16n_half,
        wipeBytes_of wipe]
      rfl
    · cases h
  · cases h

theorem sceneTransBytes_length (t : SceneTrans) : (sceneTransBytes t).length = 14 := rfl

/-! ### The record -/

/-- The bytes of a part, none when its group is absent. -/
def partBytes {α : Type} (bytes : α → List Byte) (part : Option α) : List Byte :=
  match part with
  | some a => bytes a
  | none => []

theorem sceneBytes_eq (sc : Scene) : sceneBytes sc = sceneMask sc ::
    (partBytes sceneBkgdBytes sc.bkgd ++ (partBytes sceneKeysBytes sc.keys
      ++ (partBytes sceneTransBytes sc.trans ++ partBytes orderBytes sc.order))) := by
  unfold sceneBytes
  generalize sceneMask sc = mask
  obtain ⟨bkgd, keys, trans, order⟩ := sc
  cases bkgd <;> cases keys <;> cases trans <;> cases order <;>
    simp [partBytes, sceneBkgdBytes, sceneKeysBytes, sceneTransBytes]

theorem partBytes_length {α : Type} {bytes : α → List Byte} {n : Nat} (each : ∀ a, (bytes a).length = n)
    (part : Option α) : (partBytes bytes part).length = if part.isSome then n else 0 := by
  cases part with
  | none => rfl
  | some a => exact each a

theorem sceneMask_bits (sc : Scene) : (sceneMask sc).toNat < 16 ∧ (sceneMask sc).getLsbD 0 = sc.bkgd.isSome
    ∧ (sceneMask sc).getLsbD 1 = sc.keys.isSome ∧ (sceneMask sc).getLsbD 2 = sc.trans.isSome
    ∧ (sceneMask sc).getLsbD 3 = sc.order.isSome :=
  bits_nibble sc.bkgd.isSome sc.keys.isSome sc.trans.isSome sc.order.isSome

/-- A part that stands in its place reads back. -/
theorem scenePart_bytes {α : Type} {bytes : α → List Byte} {read : List Byte → Option α} {n : Nat}
    (each : ∀ a, (bytes a).length = n) {part : Option α} (reads : ∀ a, part = some a → read (bytes a) = some a)
    (rest : List Byte) : scenePart part.isSome (read ((partBytes bytes part ++ rest).take n)) = some part := by
  cases part with
  | none => rfl
  | some a =>
    have : (partBytes bytes (some a) ++ rest).take n = bytes a := List.take_left' (each a)
    rw [this, reads a rfl]
    rfl

theorem sceneBkgdBytes_length (b : SceneBkgd) : (sceneBkgdBytes b).length = 2 := rfl

theorem orderBytes_length (o : KeyOrder) : (orderBytes o).length = 4 := rfl

theorem sceneKeysBytes_length (ks : PerKeyer SceneKeyer) : (sceneKeysBytes ks).length = 68 := rfl

theorem sceneMask_ne_zero {sc : Scene} (groups : sc.bkgd.isSome ∨ sc.keys.isSome ∨ sc.trans.isSome ∨ sc.order.isSome) :
    (sceneMask sc).toNat ≠ 0 := by
  obtain ⟨-, b0, b1, b2, b3⟩ := sceneMask_bits sc
  intro zero
  have : sceneMask sc = 0 := BitVec.eq_of_toNat_eq zero
  rw [this] at b0 b1 b2 b3
  simp [← b0, ← b1, ← b2, ← b3] at groups

theorem sceneOf_bytes {sc : Scene} (inv : SceneInv sc) : ∃ mask parts, sceneBytes sc = mask :: parts
    ∧ parts.length = partsLength mask ∧ sceneOf mask parts = some sc := by
  obtain ⟨small, b0, b1, b2, b3⟩ := sceneMask_bits sc
  have l0 := partBytes_length sceneBkgdBytes_length sc.bkgd
  have l1 := partBytes_length sceneKeysBytes_length sc.keys
  have l2 := partBytes_length sceneTransBytes_length sc.trans
  have l3 := partBytes_length orderBytes_length sc.order
  refine ⟨_, _, sceneBytes_eq sc, ?_, ?_⟩
  · simp only [List.length_append, l0, l1, l2, l3, partsLength, b0, b1, b2, b3]
    omega
  · have transReads : ∀ t, sc.trans = some t → sceneTransOf (sceneTransBytes t) = some t := fun t e => by
      obtain ⟨selection, rate, wipe⟩ := inv.trans t e
      exact sceneTransOf_bytes selection rate wipe
    have inRange : ¬((sceneMask sc).toNat = 0 ∨ 16 ≤ (sceneMask sc).toNat) :=
      not_or.2 ⟨sceneMask_ne_zero inv.groups, Nat.not_le.2 small⟩
    rw [sceneOf, if_neg inRange]
    simp only [b0, b1, b2, b3, ← l0, ← l1, ← l2, ← List.drop_drop, List.drop_left]
    rw [scenePart_bytes sceneBkgdBytes_length fun b _ => sceneBkgdOf_bytes b,
      scenePart_bytes sceneKeysBytes_length fun ks e => sceneKeysOf_bytes (inv.keys ks e),
      scenePart_bytes sceneTransBytes_length fun t e => transReads t e,
      ← List.append_nil (partBytes orderBytes sc.order),
      scenePart_bytes orderBytes_length fun o e => orderOf_bytes (inv.order o e)]

/-- The part that a slice spells is the slice, when the slice is taken as long as the part. -/
theorem partBytes_of {α : Type} {bytes : α → List Byte} {read : List Byte → Option α}
    (reads : ∀ {bs a}, read bs = some a → bytes a = bs) {present : Bool} {n : Nat} {rest : List Byte} {part : Option α}
    (h : scenePart present (read (rest.take n)) = some part) :
    partBytes bytes part = rest.take (if present then n else 0) := by
  obtain ⟨isSome, spelled⟩ := scenePart_some h
  cases part with
  | none => rw [← isSome]; rfl
  | some a => rw [← isSome]; exact reads (spelled a rfl)

/-- Slices taken one after another make up the whole. -/
theorem slices_append (a b c d : Nat) (l : List Byte) (length : l.length = a + b + c + d) :
    l.take a ++ ((l.drop a).take b ++ ((l.drop (a + b)).take c ++ (l.drop (a + b + c)).take d)) = l := by
  have last : (l.drop (a + b + c)).take d = l.drop (a + b + c) := List.take_of_length_le (by simp [length])
  rw [last, ← List.drop_drop (j := a + b), List.take_append_drop, ← List.drop_drop (j := a), List.take_append_drop,
    List.take_append_drop]

theorem sceneBytes_of {mask : Byte} {parts : List Byte} {sc : Scene} (length : parts.length = partsLength mask)
    (h : sceneOf mask parts = some sc) : sceneBytes sc = mask :: parts := by
  unfold sceneOf at h
  split at h
  · cases h
  · next inRange =>
    dsimp only at h
    split at h <;> cases h
    next b k t o hb hk ht ho =>
      have small : mask.toNat < 16 := by omega
      have isMask : sceneMask ⟨b, k, t, o⟩ = mask := by
        rw [sceneMask, (scenePart_some hb).1, (scenePart_some hk).1, (scenePart_some ht).1, (scenePart_some ho).1]
        exact nibble_bits mask small
      rw [sceneBytes_eq, isMask]
      dsimp only
      rw [partBytes_of sceneBkgdBytes_of hb, partBytes_of sceneKeysBytes_of hk, partBytes_of sceneTransBytes_of ht,
        partBytes_of orderBytes_of ho]
      exact congrArg (mask :: ·) (slices_append _ _ _ _ parts (by rw [length, partsLength]))

/-- Settles O29: a part at a time, each part in its place. -/
theorem sceneRecordsReadBackUnchanged : Obligations.SceneRecordsReadBackUnchanged :=
  ⟨fun _ inv => sceneOf_bytes inv, fun _ _ _ length h => sceneBytes_of length h⟩

end Sys2Proof.Machine
end

section
/-!
SUPPORT. The link, the check byte, the responses and the RESET pin (chapter 11, section 12.4), and the timed reference
events (chapters 1 and 2).
-/

namespace Sys2Proof.Machine

/-! ### Rows that RESET holds (R177) -/

/-- Settles O3: a frame needs a port that reads, and every timed row waits for the release. -/
theorem nothingActsWhileResetAsserted : Obligations.NothingActsWhileResetAsserted := by
  refine ⟨fun c s held acts => ?_, fun p s held =>
    ⟨congrArg Host.Outcome.next (if_pos held), congrArg Host.Outcome.next (if_pos held)⟩⟩
  have unread : ∀ p, ¬Reads s p := fun p reads => Bool.noConfusion (reads.1.symm.trans held)
  have unheard : ∀ p, ¬takesStream s p = true := fun p stream =>
    Bool.noConfusion (((takesStream_iff s p).1 stream).1.symm.trans held)
  cases hf : commandFrameOf c with
  | some f => rw [exec_dealCovered hf, commandFrame_unread (unread _)]
  | none =>
    cases c with
    | cue p target code body => exact congrArg Host.Outcome.next (sizedFrameOf_none hf s)
    | sceneLoad p slot mask body => exact congrArg Host.Outcome.next (sizedFrameOf_none hf s)
    | streamFrame p value mode chk => exact congrArg Host.Outcome.next (if_neg (unheard p))
    | breakFrame p => exact congrArg Host.Outcome.next (if_neg (unheard p))
    | illegal p code =>
      refine congrArg Host.Outcome.next (if_neg fun h => ?_)
      exact unread p ((takesCommand_iff s p).1 (Bool.and_eq_true_iff.1 h).1)
    | tornFrame p =>
      refine congrArg Host.Outcome.next (if_neg fun h => ?_)
      simp [receiving, held] at h
    | responseLost | responseReady | responseSent | referenceLineSync | referenceFrameMarker | inputFrameMarker
    | activeSample | switchPoint | timingSetupApply | issue | goLive | engineResetApply | sceneCutApply | keyCutApply
    | cutPerform | autoStart | takeover | manualStart | completion | quietLimitExpiry | cueRelease =>
      exact congrArg Host.Outcome.next (if_pos held)
    | selectFall | transactionEnd | resetAssert | resetRelease => cases acts
    | _ => cases hf

/-! ### The check byte (section 12.4) -/

/-- The shift undone: its lowest bit tells whether the polynomial was added. -/
def crcUnshift (r : Byte) : Byte := if r.getLsbD 0 then ((r ^^^ 0x07#8) >>> 1) ||| 0x80#8 else r >>> 1

theorem crcUnshift_crcShift (r : Byte) : crcUnshift (crcShift r) = r := by
  have each : ∀ hi lo : Fin 16, crcUnshift (crcShift (byteOf (16 * hi + lo))) = byteOf (16 * hi + lo) := by decide
  have small := r.isLt
  have := each ⟨r.toNat / 16, by omega⟩ ⟨r.toNat % 16, by omega⟩
  simpa only [Nat.div_add_mod, byteOf_toNat] using this

theorem crcShift_injective : Function.Injective crcShift := Function.LeftInverse.injective crcUnshift_crcShift

theorem crcShifts_injective : Function.Injective fun r : Byte =>
    crcShift (crcShift (crcShift (crcShift (crcShift (crcShift (crcShift (crcShift r))))))) :=
  have two := crcShift_injective.comp crcShift_injective
  have four := two.comp two
  four.comp four

theorem xor_injective (b : Byte) : Function.Injective fun r : Byte => r ^^^ b := fun r t h => by
  have := congrArg (· ^^^ b) h
  simpa [BitVec.xor_assoc] using this

/-- The register after a byte tells the register before it. -/
theorem crcByte_injective_left (b : Byte) : Function.Injective fun r => crcByte r b :=
  crcShifts_injective.comp (xor_injective b)

/-- The register after a byte tells the byte. -/
theorem crcByte_injective_right (r : Byte) : Function.Injective fun b => crcByte r b := fun a b h => by
  have := crcShifts_injective h
  rw [BitVec.xor_comm r a, BitVec.xor_comm r b] at this
  exact xor_injective r this

theorem foldl_crcByte_injective (bytes : List Byte) : Function.Injective fun r => bytes.foldl crcByte r := by
  induction bytes with
  | nil => exact fun _ _ h => h
  | cons b bytes ih => exact ih.comp (crcByte_injective_left b)

theorem crcByte_self (r : Byte) : crcByte r r = 0 := by
  rw [crcByte, BitVec.xor_self]
  decide

/-- Settles O4: each byte moves the register by a bijection. -/
theorem checkByteDetectsOneByte : Obligations.CheckByteDetectsOneByte := by
  refine ⟨fun bytes => ?_, fun before after a b differ same => differ ?_⟩
  · rw [crc8, List.foldl_append]
    exact crcByte_self _
  · simp only [crc8, List.foldl_append, List.foldl_cons] at same
    exact crcByte_injective_right _ (foldl_crcByte_injective after same)

/-- Settles O5. -/
theorem wrongCheckByteIsAnsweredCheck : Obligations.WrongCheckByteIsAnsweredCheck := by
  intro c p covered chk s frame reads wrong
  rw [exec_dealCovered frame, commandFrame_wrong reads wrong.symm]
  rfl

/-! ### Link events (R166) -/

theorem unlessReset_of_free {s : State} (free : s.resetLow = false) (f : State → State) : unlessReset f s = f s :=
  if_neg (Bool.eq_false_iff.1 free)

theorem phaseIs_false {s : State} {p : Port} {ph : LinkPhase} (h : (s.ports.get p).phase ≠ ph) :
    phaseIs s p ph = false := Bool.eq_false_iff.2 (mt (phaseIs_iff s p ph).1 h)

theorem receiving_iff (s : State) (p : Port) :
    receiving s p = true ↔ s.resetLow = false ∧ (s.ports.get p).phase = .receiving := by
  rw [receiving, Bool.and_eq_true, Bool.not_eq_true', decide_eq_true_iff]
  rfl

theorem transactionEndWork_free {s : State} {p : Port} (free : s.resetLow = false) : transactionEndWork p s =
    if (s.ports.get p).phase = .spent ∨ (s.ports.get p).phase = .receiving ∨ (s.ports.get p).phase = .closed then
      s.onPort p PortState.closed
    else s := by
  unfold transactionEndWork
  rw [if_neg (Bool.eq_false_iff.1 free)]
  refine ite_congr ?_ (fun _ => rfl) fun _ => rfl
  simp [phaseIs_iff, or_assoc]

theorem selectFallWork_free {s : State} {p : Port} (free : s.resetLow = false) : selectFallWork p s =
    if (s.ports.get p).phase = .closed ∧ (s.ports.get p).selectLow = false then
      s.onPort p fun ps => { ps with phase := .receiving, selectLow := true }
    else s := by
  unfold selectFallWork
  rw [if_neg (Bool.eq_false_iff.1 free)]
  refine ite_congr ?_ (fun _ => rfl) fun _ => rfl
  simp [phaseIs_iff]

theorem tornFrame_work {s : State} {p : Port} : raiseTo .torn p (mapPort p closePort s) =
    s.onPort p fun ps => { ps.closed with flags := setFlag ps.flags .torn } := by
  cases p <;> rfl

/-- Settles O7. -/
theorem linkEventsMoveThePhase : Obligations.LinkEventsMoveThePhase := by
  intro p s free phase
  have row : ∀ {t u : State}, t = u → (Host.Outcome.next t : Host.Outcome State Fault Refusal) = .next u :=
    congrArg Host.Outcome.next
  have waits : ∀ f, unlessReset f s = f s := unlessReset_of_free free
  refine ⟨fun closed high => row ?_, fun receives => row ?_, fun sends => row ?_, fun open_ => row ?_,
    fun ends => row ?_, fun closed low => ⟨row ?_, row ?_⟩, fun code reads unknown => row ?_, fun busy => row ?_,
    fun not => row ?_, fun not => row ?_, fun not => row ?_, fun not not' => row ?_, fun open_ => row ?_,
    fun not code => row ?_⟩
  · exact (selectFallWork_free free).trans (if_pos ⟨closed, high⟩)
  · exact (if_pos ((receiving_iff s p).2 ⟨free, receives⟩)).trans tornFrame_work
  · exact (waits _).trans (if_pos ((phaseIs_iff s p _).2 sends))
  · refine (waits _).trans (if_pos ?_)
    rw [Bool.or_eq_true, phaseIs_iff, phaseIs_iff]
    exact open_
  · exact (transactionEndWork_free free).trans (if_pos (ends.imp_right .inl))
  · exact (transactionEndWork_free free).trans (if_pos (.inr (.inr closed)))
  · refine (selectFallWork_free (s := s.onPort p PortState.closed) free).trans (if_pos ?_)
    simp [State.onPort, PortState.closed]
  · refine if_pos (Bool.and_eq_true_iff.2 ⟨(takesCommand_iff s p).2 reads, ?_⟩)
    rw [unknown]
    rfl
  · refine (selectFallWork_free free).trans (if_neg fun ⟨closed, high⟩ => ?_)
    exact busy.elim (· closed) fun low => Bool.noConfusion (high.symm.trans low)
  · exact if_neg fun h => not ((receiving_iff s p).1 h).2
  · exact (waits _).trans (if_neg (Bool.eq_false_iff.1 (phaseIs_false not)))
  · exact (waits _).trans (if_neg (Bool.eq_false_iff.1 (phaseIs_false not)))
  · refine (waits _).trans (if_neg fun h => ?_)
    rw [Bool.or_eq_true, phaseIs_iff, phaseIs_iff] at h
    exact h.elim not not'
  · refine (transactionEndWork_free free).trans (if_neg fun h => ?_)
    rcases open_ with e | e <;> rw [show (s.ports.get p).phase = _ from e] at h <;> simp at h
  · refine if_neg fun h => not ?_
    exact ((takesCommand_iff s p).1 (Bool.and_eq_true_iff.1 h).1).2.1

/-! ### The response (R170, R171) -/

theorem exists_noticeBit {i : Nat} (h : i < 10) : ∃ n, noticeBit n = i := by
  have each : ∀ j : Fin 10, ∃ n ∈ [Notice.tally, .done, .ref, .input, .clip, .locks, .cueFail, .cueDrop, .torn,
    .leverLost], noticeBit n = j.val := by decide
  obtain ⟨n, -, hn⟩ := each ⟨i, h⟩
  exact ⟨n, hn⟩

/-- The attention bit is 1 exactly when some flag is set and enabled; the flags lie in the ten lowest bits. -/
theorem attn_iff {ps : PortState} (flags : ps.flags.toNat < 1024) :
    attn ps = true ↔ ∃ n, flagSet ps.flags n = true ∧ flagSet ps.mask n = true := by
  rw [attn, bne_iff_ne]
  constructor
  · intro some
    by_contra none
    refine some (BitVec.eq_of_getLsbD_eq fun i _ => ?_)
    show _ = (0#16).getLsbD i
    rw [BitVec.getLsbD_and, BitVec.getLsbD_zero]
    by_cases low : i < 10
    · obtain ⟨n, rfl⟩ := exists_noticeBit low
      exact Bool.eq_false_iff.2 fun both => none ⟨n, Bool.and_eq_true_iff.1 both⟩
    · have off : ps.flags.getLsbD i = false :=
        Nat.testBit_lt_two_pow
          (flags.trans_le (Nat.pow_le_pow_right (by decide) (Nat.le_of_not_lt low) : 2 ^ 10 ≤ 2 ^ i))
      rw [off, Bool.false_and]
  · rintro ⟨n, flag, enabled⟩ zero
    have := congrArg (BitVec.getLsbD · (noticeBit n)) zero
    rw [flagSet] at flag enabled
    simp [flag, enabled] at this

theorem statusByte_bits (o : CmdOutcome) (ps : PortState) : (statusByte o ps).getLsbD 7 = false
    ∧ statusByte o ps &&& 0x3F#8 = outcomeCode o ∧ (statusByte o ps).getLsbD 6 = attn ps := by
  unfold statusByte
  cases attn ps <;> cases o <;> decide

/-- Settles O8. -/
theorem responseCarriesStatusDataAndCheck : Obligations.ResponseCarriesStatusDataAndCheck := by
  intro p s r free awaits replied flags
  obtain ⟨bit7, code, bit6⟩ := statusByte_bits r.outcome (s.ports.get p)
  refine ⟨statusByte r.outcome (s.ports.get p), congrArg Host.Outcome.next ?_, bit7, code, ?_, ?_⟩
  · refine (unlessReset_of_free free _).trans ((if_pos ((phaseIs_iff s p _).2 awaits)).trans ?_)
    simp only [mapPort, State.port_eq, formResponse, replied]
    rfl
  · rw [bit6]
    exact attn_iff flags
  · rw [bit6, attentionLow, free]
    rfl

/-! ### Timed events (chapters 1 and 2) -/

/-- Settles O34. -/
theorem timingEventsAreKept : Obligations.TimingEventsAreKept := by
  intro t s free
  refine ⟨?_, ?_, fun i => ?_, fun a b c d four => ?_, fun few => ?_⟩
  · refine congrArg Host.Outcome.next ((unlessReset_of_free free _).trans ?_)
    unfold timeLine
    cases s.rtg.lastEdge <;> rfl
  · exact congrArg Host.Outcome.next (unlessReset_of_free free _)
  · exact congrArg Host.Outcome.next (unlessReset_of_free free _)
  · rw [measuredPeriod, four]
  · unfold measuredPeriod
    split
    · next four => simp [four] at few
    · rfl

/-! ### The RESET pin (R177) -/

theorem powerOn_powerOn (r : Raster) (select : PerPort Bool) (low : Bool) : PowerOn r (State.powerOn r select low) where
  rasterStrapped := rfl
  follow := ⟨rfl, rfl, rfl⟩
  reference := ⟨rfl, rfl, rfl⟩
  counts := ⟨rfl, rfl, rfl⟩
  trimZero := ⟨rfl, rfl⟩
  counter := rfl
  sources i := by simp [State.powerOn, powerOnInput, black]
  judged i := by simp [State.powerOn, powerOnInput]
  window := ⟨rfl, rfl⟩
  lastSent i := PerInput.get_const none i
  copies := rfl
  keyers k := PerKeyer.get_const (defaultKeyer r) k
  order := rfl
  transition := ⟨rfl, rfl, rfl⟩
  wipe := rfl
  limiter := rfl
  mattes := ⟨rfl, rfl⟩
  locks x := PerResource.get_const none x
  idle := ⟨rfl, rfl, rfl, rfl, PerKeyer.get_const false⟩
  noAction := ⟨rfl, rfl, rfl, rfl, PerKeyer.get_const none, rfl, rfl⟩
  lever := ⟨rfl, rfl, PerPort.get_const powerOnLever⟩
  direction := ⟨rfl, rfl⟩
  clips := ⟨rfl, rfl, rfl⟩
  tally src := by simp [State.powerOn, tallyOff, noLayers]
  tallyLists := ⟨rfl, PerPort.get_const (ChangeList.mk [] false)⟩
  cues := ⟨rfl, rfl, PerPort.get_const none⟩
  scenes := ⟨fun n => by simp [State.slot, State.powerOn], rfl⟩
  ports p := by simp [State.powerOn, powerOnPort, allNotices]
  granted := rfl

/-- Settles O2. -/
theorem resetPinGivesPowerOnState : Obligations.ResetPinGivesPowerOnState := by
  refine ⟨fun rsel s => ⟨_, rfl, ?_, rfl, rfl, fun p => ?_⟩, fun s => rfl, fun s t empty high asserted => ?_⟩
  · obtain ⟨⟩ := powerOn_powerOn (strapRaster rsel) (s.ports.map PortState.selectLow) true
    constructor <;> assumption
  · simp [resetAssertWork, State.powerOn, powerOnPort]
  · cases asserted
    have lines : s.ports.map PortState.selectLow = .const false := PerPort.ext_get fun p => by simp [high p]
    show Host.Outcome.next _ = _
    rw [State.reset, State.powerOn, resetAssertWork, lines, empty]
    rfl

end Sys2Proof.Machine
end

section
/-!
SUPPORT. The rows that run one part of a switch point alone (chapters 1, 2 and 4): ISSUE, GO LIVE, the stages of the
frame take, and a pending timing setup.
-/

namespace Sys2Proof.Machine

/-! ### A row of a part -/

/-- A row that RESET holds back runs its part while the pin is released. -/
theorem timedRow_next {s t : State} {f : State → State} (free : s.resetLow = false) (h : f s = t) :
    (Host.Outcome.next (unlessReset f s) : Host.Outcome State Fault Refusal) = .next t :=
  congrArg Host.Outcome.next ((unlessReset_of_free free f).trans h)

theorem behindSceneCut_of_none {s : State} (noCut : s.tc.sceneCut = none) (f : State → State) :
    behindSceneCut s f = f s := by
  simp [behindSceneCut, noCut]

/-! ### Issuing and going live (chapter 2) -/

theorem bne_eq_decide_ne {α : Type} [BEq α] [LawfulBEq α] [DecidableEq α] (a b : α) : (a != b) = decide (a ≠ b) := by
  rw [bne, beq_eq_decide, decide_not]

theorem waitsForIssue_eq (i : InputRec) : waitsForIssue i = decide (i.requested ≠ i.issued) :=
  bne_eq_decide_ne _ _

theorem issueInput_eq (i : InputRec) : issueInput i =
    { i with issued := i.requested, awaiting := i.awaiting || decide (i.requested ≠ i.issued) } := by
  unfold issueInput
  rw [waitsForIssue_eq]
  by_cases same : i.requested = i.issued
  · have stands : i = { i with issued := i.requested } := congrArg (fun src => { i with issued := src }) same.symm
    simpa [same] using stands
  · simp [same]

theorem filterMap_ite_some {α β : Type} (p : α → Bool) (f : α → β) (l : List α) :
    (l.filterMap fun a => if p a then some (f a) else none) = (l.filter p).map f := by
  induction l with
  | nil => rfl
  | cons a l ih => cases h : p a <;> simp [h, ih]

theorem filter_flatMap_eq {α β : Type} (p : α → Bool) (f : α → List β) (l : List α) :
    (l.filter p).flatMap f = l.flatMap fun a => if p a then f a else [] := by
  induction l with
  | nil => rfl
  | cons a l ih => cases h : p a <;> simp [h, ih]

/-- Settles O37: a record is sent for exactly the inputs that the burst's filter picks. -/
theorem issueSendsOneBurst : Obligations.IssueSendsOneBurst := by
  intro s free asked sends sent
  refine ⟨timedRow_next free rfl, timedRow_next free ?_⟩
  have record : recordFor s = fun i => if sends i then some ⟨i, asked i⟩ else none := by
    funext i
    simp only [recordFor, waitsForIssue_eq, bne_eq_decide_ne]
    rfl
  have after : lastSentAfter s = sent := by
    funext i
    cases sending : sends i <;> simp [lastSentAfter, record, sent, sending]
  unfold issueAll
  rw [if_pos rfl, record, after, filterMap_ite_some, mapInputs, funext issueInput_eq]

/-- Settles O38: input by input. -/
theorem goLiveMakesIssuedLive : Obligations.GoLiveMakesIssuedLive := by
  intro s free after
  refine timedRow_next free (congrArg (mapInputs · s) (funext fun i => ?_))
  by_cases reset : s.tc.resetPending <;> simp only [reset, after]
  · rfl
  · cases awaits : i.awaiting <;> simp [goLiveInput, awaits]

/-! ### The stages of a frame take (chapter 4) -/

theorem anyInFlight_keyerInputs (s : State) (k : Keyer) :
    anyInFlight s (keyerInputs k (s.mes.live.keyers.get k).type)
      = (recInFlight (s.input (.fill k)) || (isLinear s k && recInFlight (s.input (.key k)))) := by
  cases type : (s.mes.live.keyers.get k).type <;> simp [anyInFlight, keyerInputs, isLinear, type, KeyType.isLinear]

/-- Settles O43: a cut waits while an input of its own is in flight and its count is below 4. -/
theorem sceneCutAndKeyCutsApplied : Obligations.SceneCutAndKeyCutsApplied := by
  refine ⟨fun s free => ⟨fun none => timedRow_next free ?_, fun c cut => timedRow_next free ?_⟩,
    fun k s free => ⟨fun idle => timedRow_next free ?_, fun c noCut cut apart => timedRow_next free ?_⟩⟩
  · rw [sceneCutStage, none]
  · rw [sceneCutStage, cut]
    rfl
  · unfold behindSceneCut
    split
    · rfl
    · next noCut =>
      unfold keyCutStage
      split
      · rfl
      · next c cut =>
        have moving : (inFlightSelection s).keyers.get k = true := by simp_all
        exact if_pos moving
  · rw [behindSceneCut_of_none noCut, keyCutStage, cut]
    simp only [apart, Bool.false_eq_true, if_false]
    rw [anyInFlight_keyerInputs]
    rfl

theorem applyEngineReset_of_pending {s : State} (pending : s.tc.resetPending = true) : applyEngineReset s =
    ({ s with
      tc := { s.tc with
        mode := .idle, pos := 0, inFlight := none, role := .bga, onAir := .const false, resetPending := false }
      lu := { s.lu with levers := .build fun q => (s.lu.levers.get q).unlessWaiting (losesPickup s q) } } :
      State).onPorts fun q ps => raisedWhen (losesPickup s q) .leverLost ps := by
  rw [applyEngineReset, if_pos pending, toIdle, leaveManual_eq]
  rfl

/-- Settles O44: the engine reset leaves MANUAL, and the quiet count runs while there is a holder. -/
theorem engineResetAndQuietLimitAtTake : Obligations.EngineResetAndQuietLimitAtTake := by
  refine fun s free => ⟨fun none => timedRow_next free ?_, fun pending =>
    timedRow_next free (applyEngineReset_of_pending pending), fun none => timedRow_next free ?_,
    fun h held => ⟨fun below => timedRow_next free ?_, fun reached => timedRow_next free ?_⟩⟩
  · simp [applyEngineReset, none]
  · rcases quietStep_cases s with ⟨-, e⟩ | ⟨g, held, -⟩
    · exact e
    · simp [none] at held
  all_goals
    rcases quietStep_cases s with ⟨none, -⟩ | ⟨g, held', step⟩
    · simp [held] at none
    cases held.symm.trans held'
  · rcases step with ⟨-, e⟩ | ⟨reached, -⟩
    · exact e
    · exact absurd below (Nat.not_lt.2 reached)
  · rcases step with ⟨below, -⟩ | ⟨-, e⟩
    · exact absurd below (Nat.not_lt.2 reached)
    · exact e

/-- A start from IDLE waits for the inputs of the live selection, taken with the live keyer types (R69). -/
theorem startWaits_eq (s : State) (count : Nat) : startWaits s count =
    (((if s.mes.live.selection.bkgd then [InputId.bga, .bgb] else [])
      ++ Keyer.all.flatMap fun k =>
        if s.mes.live.selection.keyers.get k then keyerInputs k (s.mes.live.keyers.get k).type else []).any
          (fun i : InputId =>
          decide ((s.bi.inputs.get i).requested ≠ (s.bi.inputs.get i).issued) || (s.bi.inputs.get i).awaiting)
      && decide (count < 4)) := by
  have moving : (fun i => recInFlight (s.input i)) = fun i : InputId =>
      decide ((s.bi.inputs.get i).requested ≠ (s.bi.inputs.get i).issued) || (s.bi.inputs.get i).awaiting := by
    funext i
    rw [recInFlight, bne_eq_decide_ne]
    rfl
  rw [startWaits, anyInFlight, moving, selectionInputs, filter_flatMap_eq]
  rfl

theorem completeRunning_of_some {s : State} {f : InFlight} (flies : s.tc.inFlight = some f) :
    completeRunning s = ⟨f.selection, some f.type, false⟩ := by
  simp [completeRunning, inFlightSelection, flies]

/-- Settles O45: the stage of a CUT and that of an AUTO from IDLE, with the completion they may hand over. -/
theorem cutIsPerformedAndAutoStarts : Obligations.CutIsPerformedAndAutoStarts := by
  unfold Obligations.CutIsPerformedAndAutoStarts
  intro waits
  have waits_eq : ∀ s n, startWaits s n = waits s n := startWaits_eq
  refine ⟨fun s free noCut cut => ⟨fun idle => timedRow_next free ?_, fun f running flies => timedRow_next free ?_⟩,
    fun s free noCut auto idle => timedRow_next free ?_⟩
  · rw [behindSceneCut_of_none noCut, ← waits_eq, cutStage, cut, idle]
    dsimp only
    split
    · rfl
    · rw [clearMain_releaseForMain]
      exact complete_eq _ _
  · rw [behindSceneCut_of_none noCut]
    have stage : cutStage s = ⟨s.mainPerformed, some ⟨f.selection, some f.type, false⟩, false⟩ := by
      rw [← clearMain_releaseForMain, ← completeRunning_of_some flies, cutStage, cut]
      cases mode : s.tc.mode
      · exact absurd mode running
      · rfl
      · rfl
    rw [stage]
    exact complete_eq _ _
  · rw [behindSceneCut_of_none noCut, ← waits_eq, autoStage, auto, idle]
    dsimp only
    rw [clearMain_releaseForMain]
    split_ifs
    · rfl
    · exact complete_eq _ _
    · rfl

/-- Settles O46: the frame count is the rounded-up share that is left, and leaving MANUAL tells the WAITING ports. -/
theorem takeoverKeepsPositionAndSpeed : Obligations.TakeoverKeepsPositionAndSpeed := by
  intro s f free noCut auto manual flies below
  refine ⟨_, rfl, fun some => takeoverFrames_range below (Nat.pos_iff_ne_zero.1 some), timedRow_next free ?_⟩
  rw [behindSceneCut_of_none noCut, takeoverStage, auto, manual]
  dsimp only
  rw [clearMain_releaseForMain, completeRunning_of_some flies, leaveManual_eq]
  split_ifs
  · exact complete_eq _ _
  · have flies' : s.mainPerformed.tc.inFlight = some f := flies
    simp only [finish, mapTc, flies', Option.map_some]
    rfl

theorem manualStage_of_holder {s : State} {h : Port} (idle : s.tc.mode = .idle) (held : s.lu.holder = some h) :
    manualStage s = if (s.lever h).pos = 0 then ⟨setManualDeferrals 0 s, none, true⟩
      else if s.tc.main ≠ .none ∨ s.tc.sceneCut.isSome then noWork s
      else if startWaits s s.tc.manualDeferrals then
        ⟨setManualDeferrals (s.tc.manualDeferrals + 1) s, none, true⟩
      else startManual (s.lever h).pos s := by
  simp only [manualStage, idle, held]

/-- Settles O47: stage 4 in IDLE, and the completions of stage 4 in AUTO and MANUAL. -/
theorem manualStartAndCompletion : Obligations.ManualStartAndCompletion := by
  unfold Obligations.ManualStartAndCompletion
  intro waits
  have waits_eq : ∀ s n, startWaits s n = waits s n := startWaits_eq
  refine ⟨fun s h free idle held => ?_, fun s f free flies => ⟨fun auto last => timedRow_next free ?_,
    fun h manual held full => timedRow_next free ?_⟩⟩
  · have lever_pos : (s.lever h).pos = (s.lu.levers.get h).pos := rfl
    refine ⟨fun home => timedRow_next free ?_, fun away behind => timedRow_next free ?_,
      fun away noMain noCut wait => timedRow_next free ?_,
      fun away noMain noCut clear => ⟨fun below => timedRow_next free ?_, fun full => timedRow_next free ?_⟩⟩
    all_goals rw [manualStage_of_holder idle held]
    · rw [if_pos (lever_pos.trans home)]
      rfl
    all_goals rw [if_neg (lever_pos.trans_ne away)]
    · rw [if_pos (by simpa [Option.isSome_iff_ne_none] using behind)]
      rfl
    all_goals rw [if_neg (by simp [noMain, noCut]), waits_eq]
    · rw [if_pos wait]
      rfl
    all_goals rw [clear, if_neg nofun, startManual]
    · rw [if_neg (Nat.not_le.2 (lever_pos.trans_lt below))]
      rfl
    · rw [if_pos (full.symm.trans lever_pos.symm).le]
      exact complete_eq _ _
  · have done : dueCompletion s = some ⟨f.selection, some f.type, false⟩ := by
      simp [dueCompletion, auto, autoAdvance, flies, last]
    simp only [finish, done]
    exact complete_eq _ _
  · have stands : (s.lever h).pos = 4096 := full
    have done : dueCompletion s = some ⟨f.selection, some f.type, true⟩ := by
      simp only [dueCompletion, manual, leverAdvance, held]
      rw [if_neg (by rw [stands]; decide), if_pos stands.ge, completeRunning_of_some flies]
    simp only [finish, done]
    exact complete_eq _ _

/-! ### A pending timing setup (R13, R15, R30, R40) -/

theorem PerKeyer.map_self {α : Type} (v : PerKeyer α) : (v.map fun a => a) = v := rfl

theorem PerInput.map_self {α : Type} (v : PerInput α) : (v.map fun a => a) = v := rfl

theorem clampCropsWhen_eq (changed : Bool) (s : State) : clampCropsWhen changed s =
    let clamp := fun k : KeyerSetup => if changed then clampCrop s.rtg.raster k else k
    let copy := fun st : Setup => { st with keyers := st.keyers.map clamp }
    { s with
      mes := { s.mes with next := copy s.mes.next, live := copy s.mes.live }
      tc := { s.tc with sceneCut := s.tc.sceneCut.map fun c => { c with keyers := c.keyers.map clamp } } } := by
  cases changed
  · exact state_ext (mes := by simp [clampCropsWhen, PerKeyer.map_self])
      (tc := by simp [clampCropsWhen, PerKeyer.map_self])
  · rfl

theorem settleAll_eq (changed : Bool) (s : State) : settleAll changed s =
    mapInputs (fun i => { i with settle := if changed = true ∧ isExternal i.live = true then 2 else i.settle }) s := by
  cases changed
  · simp [settleAll, mapInputs, PerInput.map_self]
  · refine congrArg (mapInputs · s) (funext fun i => ?_)
    by_cases external : isExternal i.live = true <;> simp [settleInput, external]

theorem rasterChanges_of_pending {r : Rtg} {ts : TimingPair} (pending : r.pendingSetup = some ts) :
    rasterChanges r = decide (ts.raster ≠ r.raster) := by
  simp [rasterChanges, pending, bne_eq_decide_ne]

theorem applyEnable_lock (r : Rtg) : (applyEnable r).lock =
    if r.enable then (if r.lock = .free then .seeking else r.lock) else .free := by
  unfold applyEnable
  split_ifs <;> simp_all [clearCounts]

/-- What a pending setup leaves of the RTG (R7, R15). -/
theorem applyTimingSetup_of_pending {r : Rtg} {ts : TimingPair} (pending : r.pendingSetup = some ts) :
    applyTimingSetup r =
      let changed := decide (ts.raster ≠ r.raster)
      let clears := changed || !ts.enable
      { r with
        raster := ts.raster
        enable := ts.enable
        pendingSetup := none
        lock := if ts.enable then (if changed = true ∨ r.lock = .free then .seeking else r.lock) else .free
        cond := if changed then .absent else r.cond
        linePeriods := if changed then [] else r.linePeriods
        lastEdge := if changed then none else r.lastEdge
        miss := if clears then 0 else r.miss
        inWindow := if clears then 0 else r.inWindow
        outCount := if clears then 0 else r.outCount
        trimLimit := if clears then false else r.trimLimit } := by
  simp only [applyTimingSetup, pending]
  by_cases same : ts.raster = r.raster
  · cases enable : ts.enable <;> by_cases free : r.lock = .free <;>
      simp [same, applyEnable, free, clearCounts]
  · cases enable : ts.enable <;> simp [same, clearCounts]

/-- Settles O35: the setup acts on the RTG, and a new raster on the inputs and the crop edges. -/
theorem timingSetupTakesEffect : Obligations.TimingSetupTakesEffect := by
  refine fun s free => ⟨fun none => timedRow_next free ?_, fun ts pending => timedRow_next free ?_⟩
  · simp [timingSetupWork, rasterChanges, applyTimingSetup, none, raiseAllWhen, settleAll, clampCropsWhen]
  · unfold timingSetupWork
    rw [applyTimingSetup_of_pending pending, rasterChanges_of_pending pending]
    dsimp only
    rw [clampCropsWhen_eq, settleAll_eq, raiseAllWhen_eq_onPorts]
    rfl

end Sys2Proof.Machine
end

section
/-!
SUPPORT. The values of the picture (chapters 5 to 7): positions, the wipe coefficient, the key coefficients, and the
composition of a sample.
-/

namespace Sys2Proof.Machine

/-! ### Positions (R73, R82) -/

theorem leverDistance_cast (h : HomeEnd) (v : Nat) :
    (leverDistance h v : Int) = |(v : Int) - (if h = .low then 0 else 1023)| := by
  cases h
  · simp [leverDistance, homeValue]
  · unfold leverDistance homeValue
    simp only [reduceCtorEq, if_false]
    split
    · rw [abs_of_nonneg (by omega)]
      omega
    · rw [abs_of_nonpos (by omega)]
      omega

theorem leverDistance_low (v : Nat) : leverDistance .low v = v := rfl

theorem leverDistance_high {v : Nat} (travel : v ≤ 1023) : leverDistance .high v = 1023 - v := by
  by_cases full : 1023 ≤ v
  · simp [leverDistance, homeValue, Nat.le_antisymm travel full]
  · simp [leverDistance, homeValue, full]

theorem autoPosition_full {p0 r : Nat} (start : p0 ≤ 4095) (some : 0 < r) : autoPosition p0 r r = 4096 := by
  rw [autoPosition, Nat.mul_div_cancel _ some]
  omega

theorem autoPosition_mono (p0 r : Nat) {k l : Nat} (h : k ≤ l) : autoPosition p0 r k ≤ autoPosition p0 r l :=
  Nat.add_le_add_left (Nat.div_le_div_right (Nat.mul_le_mul_left _ h)) _

/-- Settles O53: the share of the way left reaches the whole of it at the last count only. -/
theorem positionsReachTheirEndsExactly : Obligations.PositionsReachTheirEndsExactly := by
  refine ⟨fun h v travel => ⟨?_, ?_⟩, fun p0 r k start before => ⟨?_, Nat.le_add_right _ _,
    autoPosition_lt start before, autoPosition_mono p0 r (Nat.le_succ k),
    autoPosition_full start (Nat.zero_lt_of_lt before)⟩⟩
  · rw [← leverDistance_cast, leverPosition]
    push_cast
    rfl
  · cases h with
    | low =>
      rw [leverPosition, leverDistance_low, homeValue, HomeEnd.flip, homeValue]
      omega
    | high =>
      rw [leverPosition, leverDistance_high travel, homeValue, HomeEnd.flip, homeValue]
      omega
  · rw [autoPosition]
    push_cast [Nat.cast_sub (show p0 ≤ 4096 by omega)]
    rfl

/-! ### The wipe coefficient (R97 to R102) -/

theorem repeated_lt (u n : Nat) : repeated u n < 4096 := Nat.mod_lt _ (by decide)

theorem centreDistance_cast (u c : Nat) : (centreDistance u c : Int) = |(u : Int) - c| := by
  unfold centreDistance
  split
  · rw [abs_of_nonneg (by omega)]
    omega
  · rw [abs_of_nonpos (by omega)]
    omega

theorem patternValue_le {u v : Nat} (hu : u < 4096) (hv : v < 4096) (w : WipeSetup) : patternValue w u v ≤ 4095 := by
  unfold patternValue
  split
  · exact Nat.le_of_lt_succ hu
  · exact Nat.le_of_lt_succ hv
  all_goals exact Nat.min_le_right _ _

theorem directed_le (d : Direction) {w : Nat} (h : w ≤ 4095) : directed d w ≤ 4095 := by
  cases d
  · exact h
  · exact Nat.sub_le _ _

theorem coefficient_le (softness t w : Nat) : coefficient softness t w ≤ 4096 := by
  unfold coefficient
  split_ifs
  · exact le_refl _
  · exact Nat.zero_le _
  · exact Nat.min_le_right _ _

theorem coefficient_mono (softness w : Nat) {t t' : Nat} (h : t ≤ t') :
    coefficient softness t w ≤ coefficient softness t' w := by
  unfold coefficient
  split_ifs with hard below below'
  · exact le_refl _
  · exact absurd (below.trans_le h) below'
  · exact Nat.zero_le _
  · exact le_refl _
  · exact min_le_min_right _ (Nat.div_le_div_right (Nat.mul_le_mul_right _ (Nat.sub_le_sub_right h _)))

theorem coefficient_zero (softness w : Nat) : coefficient softness 0 w = 0 := by
  simp [coefficient]

/-- At the end of the travel the threshold stands a whole softness beyond every pattern value. -/
theorem coefficient_full (softness : Nat) {w : Nat} (h : w ≤ 4095) :
    coefficient softness (4096 + softness) w = 4096 := by
  unfold coefficient
  split_ifs with hard below
  · rfl
  · omega
  · have beyond : softness ≤ 4096 + softness - w := by omega
    have whole : 4096 ≤ (4096 + softness - w) * 4096 / softness := by
      rw [Nat.le_div_iff_mul_le (Nat.pos_of_ne_zero hard), Nat.mul_comm]
      exact Nat.mul_le_mul_right _ beyond
    exact Nat.min_eq_right whole

theorem threshold_mono (softness : Nat) {pos pos' : Nat} (h : pos ≤ pos') :
    threshold pos softness ≤ threshold pos' softness :=
  Nat.div_le_div_right (Nat.mul_le_mul_right _ h)

/-- A share of what lies above a floor, capped at 4096, as the same share of the signed difference. -/
theorem cappedShare_cast (t w a : Nat) {b : Nat} (some : 0 < b) :
    (min ((t - w) * a / b) 4096 : Nat) = max 0 (min 4096 (((t : Int) - w) * a / b)) := by
  rcases le_total w t with reached | short
  · have share : ((t : Int) - w) * a / b = (((t - w) * a / b : Nat) : Int) := by
      push_cast [Nat.cast_sub reached]
      rfl
    rw [share, max_eq_right (le_min (by decide) (Int.natCast_nonneg _)), Nat.cast_min, min_comm]
    rfl
  · have below : ((t : Int) - w) * a ≤ 0 := mul_nonpos_of_nonpos_of_nonneg (by omega) (Int.natCast_nonneg a)
    have share : ((t : Int) - w) * a / b ≤ 0 :=
      (Int.ediv_le_ediv (by omega) below).trans_eq (Int.zero_ediv _)
    rw [Nat.sub_eq_zero_of_le short, max_eq_left (min_le_of_right_le share)]
    simp

theorem coefficient_cast (softness t w : Nat) : (coefficient softness t w : Int) =
    if softness = 0 then (if (w : Int) < t then 4096 else 0)
    else max 0 (min 4096 (((t : Int) - w) * 4096 / softness)) := by
  unfold coefficient
  split_ifs with hard below below' below'
  · rfl
  · omega
  · omega
  · rfl
  · exact cappedShare_cast t w 4096 (Nat.pos_of_ne_zero hard)

theorem patternValue_cast (w : WipeSetup) (u v : Nat) : (patternValue w u v : Int) = match w.pattern with
    | .hbar => (u : Int)
    | .vbar => (v : Int)
    | .split => min (2 * |(u : Int) - w.cx|) 4095
    | .box => min (2 * max |(u : Int) - w.cx| |(v : Int) - w.cy|) 4095
    | .diamond => min (|(u : Int) - w.cx| + |(v : Int) - w.cy|) 4095 := by
  simp only [← centreDistance_cast]
  unfold patternValue
  cases w.pattern <;> simp

theorem directed_cast (d : Direction) {w : Nat} (h : w ≤ 4095) :
    (directed d w : Int) = if d = .reversed then 4095 - (w : Int) else w := by
  cases d
  · rfl
  · simp [directed, Nat.cast_sub h]

/-- Settles O52: the threshold rises with the position, from 0 to a whole softness beyond every pattern value. -/
theorem wipeCoefficientIsPureAtBothEnds : Obligations.WipeCoefficientIsPureAtBothEnds := by
  intro r w d x y _
  have pattern := patternValue_le (repeated_lt (normalised x (activeWidth r)) w.rh)
    (repeated_lt (normalised y (activeHeight r)) w.rv) w
  refine ⟨fun pos => coefficient_le _ _ _, ?_, ?_, fun pos pos' h => coefficient_mono _ _ (threshold_mono _ h),
    fun pos => ?_⟩
  · rw [wipeCoefficient, threshold, Nat.zero_mul, Nat.zero_div]
    exact coefficient_zero _ _
  · rw [wipeCoefficient, threshold, Nat.mul_div_cancel_left _ (by decide)]
    exact coefficient_full _ (directed_le d pattern)
  · rw [wipeCoefficient]
    dsimp only
    rw [coefficient_cast, directed_cast d pattern, patternValue_cast]
    simp only [repeated, normalised, threshold]
    push_cast
    rfl

/-! ### The key coefficients (R112, R114 to R118) -/

theorem shapeKey_le (source clip gain : Nat) : shapeKey source clip gain ≤ 4096 := Nat.min_le_right _ _

theorem share_le {a m : Nat} (h : m ≤ 4096) : a * m / 4096 ≤ a :=
  Nat.div_le_of_le_mul (by rw [Nat.mul_comm 4096]; exact Nat.mul_le_mul_left _ h)

/-- The shaped key before crop and opacity (R115). -/
def invertedKey (k : KeyerSetup) (source : Nat) : Nat :=
  let shaped := shapeKey source k.clip k.gain
  if k.invert then 4096 - shaped else shaped

theorem invertedKey_le (k : KeyerSetup) (source : Nat) : invertedKey k source ≤ 4096 := by
  unfold invertedKey
  dsimp only
  split
  · exact Nat.sub_le _ _
  · exact shapeKey_le _ _ _

theorem invertedKey_cast (k : KeyerSetup) (source : Nat) : (invertedKey k source : Int) =
    if k.invert then 4096 - max 0 (min 4096 (((source : Int) - k.clip) * k.gain / 64))
    else max 0 (min 4096 (((source : Int) - k.clip) * k.gain / 64)) := by
  have shaped : (shapeKey source k.clip k.gain : Int) = max 0 (min 4096 (((source : Int) - k.clip) * k.gain / 64)) :=
    cappedShare_cast source k.clip k.gain (by decide : 0 < 64)
  rw [← shaped, invertedKey]
  split
  · rw [Nat.cast_sub (shapeKey_le _ _ _)]
    rfl
  · rfl

theorem insideCrop_iff (k : KeyerSetup) (x y : Nat) :
    insideCrop k x y = true ↔ k.left ≤ x ∧ x < k.right ∧ k.top ≤ y ∧ y < k.bottom := by
  simp [insideCrop, and_assoc]

theorem shapedKey_eq (k : KeyerSetup) (source x y : Nat) : shapedKey k source x y =
    (if k.crop = true ∧ ¬(k.left ≤ x ∧ x < k.right ∧ k.top ≤ y ∧ y < k.bottom) then 0 else invertedKey k source)
      * k.opacity / 4096 := by
  have crops : (k.crop && !insideCrop k x y) = true ↔
      k.crop = true ∧ ¬(k.left ≤ x ∧ x < k.right ∧ k.top ≤ y ∧ y < k.bottom) := by
    rw [← insideCrop_iff, Bool.and_eq_true, Bool.not_eq_true', Bool.not_eq_true]
  rw [← if_congr crops rfl rfl]
  rfl

theorem shapedKey_cast (k : KeyerSetup) (source x y : Nat) : (shapedKey k source x y : Int) =
    (if k.crop = true ∧ ¬(k.left ≤ x ∧ x < k.right ∧ k.top ≤ y ∧ y < k.bottom) then 0
      else (invertedKey k source : Int)) * k.opacity / 4096 := by
  rw [shapedKey_eq]
  push_cast
  rfl

theorem shapedKey_le {k : KeyerSetup} (opacity : k.opacity ≤ 4096) (source x y : Nat) :
    shapedKey k source x y ≤ 4096 := by
  rw [shapedKey_eq]
  refine (share_le opacity).trans ?_
  split
  · exact Nat.zero_le _
  · exact invertedKey_le _ _

theorem keyerFaulted_iff (s : State) (k : Keyer) : keyerFaulted s k = true ↔
    (s.bi.inputs.get (.fill k)).faulted = true
      ∨ ((s.mes.live.keyers.get k).type = .linear ∧ (s.bi.inputs.get (.key k)).faulted = true) := by
  cases type : (s.mes.live.keyers.get k).type <;> simp [keyerFaulted, keyerInputs, type, State.input]

theorem keySignal_of_faulted {s : State} {k : Keyer} (faulted : keyerFaulted s k = true) (x y : Nat)
    (inputs : PerInput Pixel) : keySignal s x y inputs k = 0 := if_pos faulted

theorem keySignal_of_sound {s : State} {k : Keyer} (sound : ¬keyerFaulted s k = true) (x y : Nat)
    (inputs : PerInput Pixel) : keySignal s x y inputs k = shapedKey (s.mes.live.keyers.get k)
      (inputSample s x inputs (if (s.mes.live.keyers.get k).type = .linear then .key k else .fill k)).y x y := by
  cases type : (s.mes.live.keyers.get k).type <;> simp [keySignal, sound, type]

theorem keySignal_le {s : State} {k : Keyer} (opacity : (s.mes.live.keyers.get k).opacity ≤ 4096) (x y : Nat)
    (inputs : PerInput Pixel) : keySignal s x y inputs k ≤ 4096 := by
  by_cases faulted : keyerFaulted s k = true
  · rw [keySignal_of_faulted faulted]
    exact Nat.zero_le _
  · rw [keySignal_of_sound faulted]
    exact shapedKey_le opacity _ _ _

theorem mixFactor_eq (s : State) (x y : Nat) : mixFactor s x y = match s.tc.inFlight with
    | none => 0
    | some f => if f.type = .mix then s.tc.pos
        else wipeCoefficient s.rtg.raster s.mes.live.wipe s.wg.direction s.tc.pos x y := by
  unfold mixFactor
  cases s.tc.inFlight with
  | none => rfl
  | some f => cases type : f.type <;> simp [type]

theorem mixFactor_le {s : State} (pos : s.tc.pos ≤ 4096) (x y : Nat) : mixFactor s x y ≤ 4096 := by
  rw [mixFactor_eq]
  split
  · exact Nat.zero_le _
  · split
    · exact pos
    · exact coefficient_le _ _ _

theorem keyCoefficient_eq (s : State) (k : Keyer) (s2 m : Nat) : keyCoefficient s k s2 m =
    if (inFlightSelection s).keyers.get k = true ∧ s.tc.onAir.get k = false then s2 * m / 4096
    else if (inFlightSelection s).keyers.get k = true then s2 * (4096 - m) / 4096
    else if s.tc.onAir.get k = true then s2 else 0 := by
  unfold keyCoefficient
  cases (inFlightSelection s).keyers.get k <;> cases s.tc.onAir.get k <;> rfl

theorem keyCoefficient_le (s : State) (k : Keyer) (s2 : Nat) {m : Nat} (h : m ≤ 4096) :
    keyCoefficient s k s2 m ≤ s2 := by
  rw [keyCoefficient_eq]
  split_ifs
  · exact share_le h
  · exact share_le (Nat.sub_le _ _)
  · exact le_refl _
  · exact Nat.zero_le _

/-- Settles O51: the parts of the key shaping, one by one. -/
theorem coefficientsStayInRange : Obligations.CoefficientsStayInRange := by
  intro s x y inputs k pos opacity keyer linear source faulted shaped inverted inside cropped s2 m moving
  have mix : mixFactor s x y ≤ 4096 := mixFactor_le pos x y
  refine ⟨mix, keySignal_le opacity x y inputs, keyCoefficient_le s k _ mix,
    fun f => keySignal_of_faulted ((keyerFaulted_iff s k).2 f) x y inputs, fun sound => ?_,
    keyCoefficient_eq s k s2 m, mixFactor_eq s x y⟩
  have inverts : (invertedKey keyer source : Int) = inverted := invertedKey_cast keyer source
  have signal : s2 = shapedKey keyer source x y := keySignal_of_sound (mt (keyerFaulted_iff s k).1 sound) x y inputs
  rw [signal, shapedKey_cast, inverts]

/-! ### The composition of a sample (R109 to R123) -/

theorem clips_iff (x : Nat) (before after : Triple) : clips x before after = true ↔
    after.y ≠ before.y ∨ (x % 2 = 0 ∧ (after.cb ≠ before.cb ∨ after.cr ≠ before.cr)) := by
  simp [clips, bne_iff_ne, ne_comm]

theorem clampCode_within {lo hi : Nat} (h : lo ≤ hi) (v : Nat) : lo ≤ clampCode v lo hi ∧ clampCode v lo hi ≤ hi :=
  ⟨Nat.le_max_left _ _, Nat.max_le.2 ⟨h, Nat.min_le_right _ _⟩⟩

theorem clampCode_of_within {v lo hi : Nat} (low : lo ≤ v) (high : v ≤ hi) : clampCode v lo hi = v := by
  rw [clampCode, Nat.min_eq_left high, Nat.max_eq_right low]

/-- A sample that leaves the limiter lies in the limiter's ranges (R120). -/
theorem limit_within {l : Limiter} (h : LimiterInv l) (x : Nat) (t : Triple) : (outSample x (limit l t)).Within l := by
  obtain ⟨⟨hy, -⟩, hc, -⟩ := h
  obtain ⟨yLow, yHigh⟩ := clampCode_within hy t.y
  refine ⟨yLow, yHigh, fun cb cr e => ?_⟩
  obtain ⟨cbLow, cbHigh⟩ := clampCode_within hc t.cb
  obtain ⟨crLow, crHigh⟩ := clampCode_within hc t.cr
  unfold outSample at e
  dsimp only at e
  split at e
  · cases e
    exact ⟨cbLow, cbHigh, crLow, crHigh⟩
  · cases e

theorem sampleTime_lt {r : Raster} {x y : Nat} (hx : x < activeWidth r) (hy : y < activeHeight r) :
    sampleTime r x y < frameSamples r := by
  have lead := pictureLead_le r
  have lines : y * lineSamples r ≤ (activeHeight r - 1) * lineSamples r := Nat.mul_le_mul_right _ (by omega)
  unfold sampleTime
  omega

theorem barSample_eq (bar : Nat) : barSample bar =
    ([⟨721, 512, 512⟩, ⟨646, 176, 567⟩, ⟨525, 625, 176⟩, ⟨450, 289, 231⟩,
      ⟨335, 735, 793⟩, ⟨260, 399, 848⟩, ⟨139, 848, 457⟩, ⟨64, 512, 512⟩] : List Triple).getD bar ⟨64, 512, 512⟩ := by
  match bar with
  | 0 | 1 | 2 | 3 | 4 | 5 | 6 | 7 => rfl
  | n + 8 => simp [barSample]

theorem isBackgroundInput_iff (i : InputId) : isBackgroundInput i = true ↔ i = .bga ∨ i = .bgb := by
  cases i <;> simp [isBackgroundInput]

theorem inputSample_eq (s : State) (x : Nat) (inputs : PerInput Pixel) (i : InputId) : inputSample s x inputs i =
    if (i = .bga ∨ i = .bgb) ∧ (s.bi.inputs.get i).faulted = true then blackSample
    else if (s.bi.inputs.get i).live.val < 124 then Pixel.triple (inputs.get i)
    else if (s.bi.inputs.get i).live.val = 124 then blackSample
    else if (s.bi.inputs.get i).live.val = 125 then barSample (x * 8 / activeWidth s.rtg.raster)
    else if (s.bi.inputs.get i).live.val = 126 then Pixel.triple s.mes.live.matte1
    else Pixel.triple s.mes.live.matte2 := by
  have faulted : (isBackgroundInput i && (s.input i).faulted) = true ↔
      (i = .bga ∨ i = .bgb) ∧ (s.bi.inputs.get i).faulted = true := by
    rw [Bool.and_eq_true, isBackgroundInput_iff]
    rfl
  have external : isExternal (s.input i).live = true ↔ (s.bi.inputs.get i).live.val < 124 := decide_eq_true_iff
  have internal : ∀ n : Source, (s.input i).live = n ↔ (s.bi.inputs.get i).live.val = n.val := fun n => Fin.ext_iff
  unfold inputSample sourceSample
  rw [if_congr faulted rfl rfl, if_congr external rfl rfl, if_congr (internal 124) rfl rfl,
    if_congr (internal 125) rfl rfl, if_congr (internal 126) rfl rfl]
  rfl

theorem mixTriple_zero (a b : Triple) : mixTriple a b 0 = a := by simp [mixTriple]

/-- With every key coefficient 0 the layers leave the background. -/
theorem layer_of_zero (s : State) (x : Nat) (inputs : PerInput Pixel) (bg : Triple) :
    layer s x inputs bg (fun _ => 0) = bg := by
  simp only [layer, KeyOrder.toList, List.foldl, mixTriple_zero]

/-- In IDLE with every keyer off air the program composite is the PGM-role input's sample. -/
theorem programComposite_of_quiet {s : State} (none : s.tc.inFlight = none) (off : ∀ k, s.tc.onAir.get k = false)
    (x y : Nat) (inputs : PerInput Pixel) :
    programComposite s x y inputs = inputSample s x inputs (pgmInput s.tc.role) := by
  have still : (inFlightSelection s).bkgd = false ∧ ∀ k, (inFlightSelection s).keyers.get k = false := by
    simp [inFlightSelection, none, noLayers]
  obtain ⟨noBkgd, noKeyer⟩ := still
  have coefficients : (fun k => keyCoefficient s k (keySignal s x y inputs k) (mixFactor s x y)) = fun _ => 0 := by
    funext k
    simp [keyCoefficient_eq, noKeyer, off]
  rw [programComposite, coefficients, layer_of_zero, programBackground_of_not_bkgd (by simp [noBkgd])]

theorem previewSelection_eq (s : State) : previewSelection s =
    if s.tc.mode = .idle then s.mes.live.selection else inFlightSelection s := by
  cases mode : s.tc.mode <;> simp [previewSelection, mode]

theorem previewComposite_eq (s : State) (x y : Nat) (inputs : PerInput Pixel) : previewComposite s x y inputs =
    let ending := if s.tc.mode = .idle then s.mes.live.selection else inFlightSelection s
    layer s x inputs (inputSample s x inputs (if ending.bkgd then pstInput s.tc.role else pgmInput s.tc.role))
      (fun k => if ending.keyers.get k != s.tc.onAir.get k then keySignal s x y inputs k else 0) := by
  rw [← previewSelection_eq]
  rfl

theorem exec_activeSample (x y : Nat) (inputs : PerInput Pixel) {s : State} (free : s.resetLow = false) :
    exec (.activeSample x y inputs) s = .next (if isActive s x y then renderSample x y inputs s else s) :=
  congrArg Host.Outcome.next (unlessReset_of_free free _)

/-- Settles O48: what a sample is made of, and when its frame outputs it. -/
theorem activeSampleIsLimitedAndCounted : Obligations.ActiveSampleIsLimitedAndCounted := by
  intro x y inputs s free hx hy whole position l program preview limited sent changed laid ending black bars codes
    stream
  refine ⟨fun begun reached => ?_, fun missed => ?_, sampleTime_lt hx hy, fun inv => ⟨limit_within inv x program,
    limit_within inv x preview, fun t => ?_⟩, rfl, previewComposite_eq s x y inputs,
    fun none off => programComposite_of_quiet none off x y inputs, fun i => ?_⟩
  · have active : isActive s x y = true := (isActive_iff s x y).2 ⟨begun, hx, hy, reached⟩
    have counts : clips x program (limited program) = true ↔ changed := clips_iff x program (limited program)
    rw [exec_activeSample x y inputs free, if_pos active, ← if_congr counts rfl rfl]
    rfl
  · have idle : ¬isActive s x y = true := fun active => by
      obtain ⟨begun, -, -, reached⟩ := (isActive_iff s x y).1 active
      rcases missed with zero | ⟨short, beyond⟩
      · omega
      · exact reached.elim short fun within => absurd within (Nat.not_lt.2 beyond)
    rw [exec_activeSample x y inputs free, if_neg idle]
  · obtain ⟨⟨hy, -⟩, hc, -⟩ := inv
    refine ⟨fun low => ?_, fun high => ?_, clampCode_of_within, clampCode_of_within, clampCode_of_within⟩
    · exact Nat.max_eq_left ((Nat.min_le_left _ _).trans low.le)
    · exact (congrArg (max l.yLo) (Nat.min_eq_right high.le)).trans (Nat.max_eq_right hy)
  · rw [inputSample_eq, barSample_eq]
    rfl

end Sys2Proof.Machine
end

section
/-!
SUPPORT. What a whole switch point leaves, block by block: the RTG's part, the inputs', the frame take's, the tally's,
and the released cues', which write no more than requests and pending actions.
-/

namespace Sys2Proof.Machine

/-! ### Released cues (R145 to R147) -/

/-- What a released entry leaves alone: the blocks beyond requests, the queue, and every flag but CUE_FAIL. -/
structure ReleaseKeeps (s t : State) : Prop where
  same : SameBeyondRequests s { t with cq := s.cq, ports := s.ports }
  entries : t.cq.entries = s.cq.entries := by rfl
  nextTag : t.cq.nextTag = s.cq.nextTag := by rfl
  ports : RaisesAll [.cueFail] s t := by exact .refl _ _

theorem ReleaseKeeps.refl (s : State) : ReleaseKeeps s s := ⟨.refl s, rfl, rfl, .refl _ s⟩

theorem SameBeyondRequests.releaseKeeps {s t : State} (h : SameBeyondRequests s t) : ReleaseKeeps s t where
  same := { h with cq := rfl, ports := rfl }
  entries := congrArg Cq.entries h.cq
  nextTag := congrArg Cq.nextTag h.cq
  ports _ := h.ports ▸ .refl _ _

theorem ReleaseKeeps.trans {s t u : State} (h : ReleaseKeeps s t) (k : ReleaseKeeps t u) : ReleaseKeeps s u where
  same := h.same.then { k.same with cq := rfl, ports := rfl }
  entries := k.entries.trans h.entries
  nextTag := k.nextTag.trans h.nextTag
  ports := h.ports.trans k.ports

theorem recordFailure_releaseKeeps (e : CueEntry) (o : CmdOutcome) (s : State) :
    ReleaseKeeps s (recordFailure e o s) where
  same := .refl s
  ports := raiseTo_raises (List.mem_singleton_self _) e.owner
    { s with cq := { s.cq with failures := s.cq.failures.set e.owner (some ⟨e.tag, o⟩) } }

theorem releaseEntry_releaseKeeps (s : State) (e : CueEntry) : ReleaseKeeps s (releaseEntry s e) := by
  unfold releaseEntry
  dsimp only
  split
  · exact recordFailure_releaseKeeps e _ s
  · unfold releaseAnswer
    split
    · exact (dealCueCommand_same _ _ s).releaseKeeps
    · exact .refl s

theorem releaseEntries_releaseKeeps (es : List CueEntry) (s : State) : ReleaseKeeps s (es.foldl releaseEntry s) := by
  induction es generalizing s with
  | nil => exact .refl s
  | cons e es ih => exact (releaseEntry_releaseKeeps s e).trans (ih _)

/-- The due entries leave the queue, and what is dealt with leaves the rest of it. -/
theorem releaseDue_releaseKeeps (s : State) :
    ReleaseKeeps (setEntries (s.cq.entries.filter fun e => !isDue s e) s) (releaseDue s) :=
  releaseEntries_releaseKeeps _ _

section
variable (s : State)

theorem releaseDue_same : SameBeyondRequests s { releaseDue s with cq := s.cq, ports := s.ports } :=
  { (releaseDue_releaseKeeps s).same with cq := rfl, ports := rfl }

theorem releaseDue_entries : (releaseDue s).cq.entries = s.cq.entries.filter fun e => !isDue s e :=
  (releaseDue_releaseKeeps s).entries

theorem releaseDue_nextTag : (releaseDue s).cq.nextTag = s.cq.nextTag := (releaseDue_releaseKeeps s).nextTag

theorem releaseDue_raises : RaisesAll [.cueFail] s (releaseDue s) := (releaseDue_releaseKeeps s).ports

end

theorem releaseDue_of_none {s : State} (none : ∀ e ∈ s.cq.entries, isDue s e = false) : releaseDue s = s := by
  have quiet : s.cq.entries.filter (isDue s) = [] := List.filter_eq_nil_iff.2 fun e he => by simp [none e he]
  have kept : (s.cq.entries.filter fun e => !isDue s e) = s.cq.entries :=
    List.filter_eq_self.2 fun e he => by simp [none e he]
  rw [releaseDue, quiet, kept]
  rfl

/-! ### The frame take as a whole -/

/-- What the quiet count and the frame take leave alone. -/
structure TakeKeeps (s t : State) : Prop where
  pending : t.pending = s.pending := by rfl
  resetLow : t.resetLow = s.resetLow := by rfl
  rtg : t.rtg = s.rtg := by rfl
  bi : t.bi = s.bi := by rfl
  xl : t.xl = s.xl := by rfl
  locks : t.mes.locks = s.mes.locks := by rfl
  reload : t.wg.reload = s.wg.reload := by rfl
  cmp : t.cmp = s.cmp := by rfl
  tu : t.tu = s.tu := by rfl
  cq : t.cq = s.cq := by rfl
  ss : t.ss = s.ss := by rfl
  ports : RaisesAll takeNotices s t := by exact .refl takeNotices _
  lastGranted : t.lastGranted = s.lastGranted := by rfl

theorem TakeKeeps.trans {s t u : State} (h : TakeKeeps s t) (k : TakeKeeps t u) : TakeKeeps s u :=
  ⟨k.pending.trans h.pending, k.resetLow.trans h.resetLow, k.rtg.trans h.rtg, k.bi.trans h.bi, k.xl.trans h.xl,
    k.locks.trans h.locks, k.reload.trans h.reload, k.cmp.trans h.cmp, k.tu.trans h.tu, k.cq.trans h.cq,
    k.ss.trans h.ss, h.ports.trans k.ports, k.lastGranted.trans h.lastGranted⟩

theorem StageKeeps.takeKeeps {s t : State} (h : StageKeeps s t) : TakeKeeps s t :=
  { h with locks := congrArg Mes.locks h.mes }

theorem sceneCutStage_takeKeeps (s : State) : TakeKeeps s (sceneCutStage s) := by
  rcases sceneCutStage_cases s with ⟨-, e⟩ | ⟨c, -, ⟨-, -, e⟩ | ⟨-, e⟩⟩ <;> rw [e] <;> exact {}

theorem frameTake_takeKeeps (s : State) : TakeKeeps s (frameTake s) :=
  frameTake_keeps (X := TakeKeeps s) (fun stage h => h.trans stage.takeKeeps)
    (fun h => h.trans (sceneCutStage_takeKeeps _)) {}

theorem staged_takeKeeps (xready : Bool) (s : State) : TakeKeeps (s.copied xready) (s.staged xready) :=
  (quietStep_stageKeeps _).takeKeeps.trans (frameTake_takeKeeps _)

/-! ### The parts before and after the frame take -/

/-- The composition's counts once the frame that ends is closed (R124). -/
def State.closedClips (s : State) : Cmp :=
  { s.cmp with working := 0, clipCount := s.cmp.working, sticky := s.cmp.sticky || decide (0 < s.cmp.working) }

section Before
variable (xready : Bool) (s : State)

theorem framed_cmp : (s.framed xready).cmp = s.closedClips := by
  simp [State.framed, inputsSwitch, goLiveAll, judgeAll, timingSwitch, closeClipFrame, State.closedClips]

theorem framed_pending : (s.framed xready).pending = s.pending := by
  simp [State.framed, inputsSwitch, goLiveAll, judgeAll, timingSwitch, closeClipFrame]

theorem framed_resetLow : (s.framed xready).resetLow = s.resetLow := by
  simp [State.framed, inputsSwitch, goLiveAll, judgeAll, timingSwitch, closeClipFrame]

theorem framed_lastGranted : (s.framed xready).lastGranted = s.lastGranted := by
  simp [State.framed, inputsSwitch, goLiveAll, judgeAll, timingSwitch, closeClipFrame]

theorem framed_ports (p : Port) : (s.framed xready).ports.get p =
    raisedWhen (decide ((rtgSwitch s.rtg).lock ≠ s.rtg.lock)) .ref
      (raisedWhen (decide (0 < s.cmp.working)) .clip (s.ports.get p)) := by
  simp [State.framed, inputsSwitch, goLiveAll, judgeAll, timingSwitch, closeClipFrame]

/-- One input at a switch point: it goes live, settles, is judged, and its request is issued. -/
def State.switchedInput (i : InputRec) : InputRec :=
  let live := if s.tc.resetPending then blackInput i else goLiveInput i
  let settled := if settleDirective s.rtg then settleInput live else live
  let judged := judgeInput s.rtg s.bi.lMin s.bi.lMax settled
  if xready then issueInput judged else judged

theorem framed_input (i : InputId) :
    (s.framed xready).bi.inputs.get i = s.switchedInput xready (s.bi.inputs.get i) := by
  unfold State.framed inputsSwitch State.switchedInput
  cases xready <;> cases settles : settleDirective s.rtg <;> cases reset : s.tc.resetPending <;>
    simp [issueAll, judgeAll, settleAll, goLiveAll, mapInputs, timingSwitch, closeClipFrame, reset]

theorem framed_thresholds : (s.framed xready).bi.lMin = s.bi.lMin ∧ (s.framed xready).bi.lMax = s.bi.lMax := by
  unfold State.framed inputsSwitch issueAll judgeAll settleAll
  constructor <;> split_ifs <;>
    simp [goLiveAll, mapInputs, timingSwitch, closeClipFrame]

/-- What the copy, the reload and the clamp leave of the state that the inputs left. -/
theorem copied_takeKeeps : (s.copied xready).bi = (s.framed xready).bi
    ∧ (s.copied xready).mes.locks = s.mes.locks ∧ (s.copied xready).cmp = s.closedClips
    ∧ (s.copied xready).pending = s.pending ∧ (s.copied xready).resetLow = s.resetLow
    ∧ (s.copied xready).lastGranted = s.lastGranted
    ∧ (s.copied xready).ss = s.ss ∧ (s.copied xready).ports = (s.framed xready).ports := by
  rw [← framed_cmp xready s, ← framed_pending xready s, ← framed_resetLow xready s,
    ← framed_lastGranted xready s, ← framed_ss xready s,
    ← congrArg Mes.locks (framed_mes xready s)]
  unfold State.copied setupSwitch
  refine ⟨?_, ?_, ?_, ?_, ?_, ?_, ?_, ?_⟩
  · simp [copyNextToLive]
  · rw [clampCropsWhen_eq]
    simp [copyNextToLive]
  all_goals simp [copyNextToLive]

end Before

/-- The flags that a switch point raises to all ports before the cues are released. -/
def State.raisedAtSwitch (xready : Bool) (s : State) : Notice → Bool
  | .clip => decide (0 < s.cmp.working)
  | .ref => decide ((rtgSwitch s.rtg).lock ≠ s.rtg.lock)
  | .input => InputId.all.any fun i =>
      alignmentChanged (s.bi.inputs.get i) ((s.staged xready).input i)
        && (onProgram (s.staged xready) i || onPreview (s.staged xready) i)
  | .tally => !(changedSources s.tu.table (tallyTable (s.staged xready))).isEmpty
  | _ => false

/-- The table depends on no notice word. -/
theorem tallyTable_onPorts (f : Port → PortState → PortState) (s : State) :
    tallyTable (s.onPorts f) = tallyTable s := rfl

theorem publishedTally_onPorts (f : Port → PortState → PortState) (s : State) :
    publishedTally (s.onPorts f) = publishedTally s := rfl

/-- Publication gives the tally unit and the two notices to the state that the frame take left. -/
theorem published_eq (xready : Bool) (s : State) : s.published xready =
    ({ s.staged xready with tu := publishedTally (s.staged xready) } : State).onPorts fun _ ps =>
      raisedWhen (s.raisedAtSwitch xready .tally) .tally (raisedWhen (s.raisedAtSwitch xready .input) .input ps) := by
  obtain ⟨-, -, tu⟩ := staged_queues xready s
  have notice : inputNotice s.bi.inputs (s.staged xready) =
      (s.staged xready).onPorts fun _ => raisedWhen (s.raisedAtSwitch xready .input) .input :=
    raiseAllWhen_eq_onPorts _ _ _
  have changed : changedSources (s.staged xready).tu.table (tallyTable (s.staged xready))
      = changedSources s.tu.table (tallyTable (s.staged xready)) := by rw [tu]
  rw [State.published, publishTally_eq, notice, raiseAllWhen_eq_onPorts, tallyTable_onPorts, publishedTally_onPorts]
  unfold State.onPorts
  dsimp only
  rw [changed]
  exact state_ext (ports := fun q => by simp [State.raisedAtSwitch])

/-- Publication writes the tally unit and notice words alone. -/
structure PublishKeeps (s t : State) : Prop where
  pending : t.pending = s.pending
  resetLow : t.resetLow = s.resetLow
  rtg : t.rtg = s.rtg
  bi : t.bi = s.bi
  locks : t.mes.locks = s.mes.locks
  live : t.mes.live = s.mes.live
  tc : t.tc = s.tc
  lu : t.lu = s.lu
  wg : t.wg = s.wg
  cmp : t.cmp = s.cmp
  tu : t.tu = publishedTally s
  cq : t.cq = s.cq
  ss : t.ss = s.ss
  lastGranted : t.lastGranted = s.lastGranted
  picture : t.picture = s.picture

theorem published_keeps (xready : Bool) (s : State) : PublishKeeps (s.staged xready) (s.published xready) := by
  rw [published_eq]
  exact ⟨rfl, rfl, rfl, rfl, rfl, rfl, rfl, rfl, rfl, rfl, rfl, rfl, rfl, rfl, rfl⟩

theorem flagSet_raisedWhen (c : Bool) (n m : Notice) (ps : PortState) :
    flagSet (raisedWhen c n ps).flags m = (flagSet ps.flags m || (c && decide (m = n))) := by
  cases c <;> simp [raisedWhen, flagSet_setFlag]

theorem published_flags (xready : Bool) (s : State) (p : Port) {n : Notice} (apart : n ∉ takeNotices) :
    flagSet ((s.published xready).ports.get p).flags n
      = (flagSet (s.ports.get p).flags n || s.raisedAtSwitch xready n) := by
  obtain ⟨-, -, -, -, -, -, -, ports⟩ := copied_takeKeeps xready s
  have shown : (s.published xready).ports.get p = raisedWhen (s.raisedAtSwitch xready .tally) .tally
      (raisedWhen (s.raisedAtSwitch xready .input) .input ((s.staged xready).ports.get p)) := by
    rw [published_eq]
    simp [State.onPorts]
  have before : flagSet ((s.staged xready).ports.get p).flags n = flagSet ((s.framed xready).ports.get p).flags n := by
    rw [((staged_takeKeeps xready s).ports p).other n apart, ports]
  rw [shown, flagSet_raisedWhen, flagSet_raisedWhen, before, framed_ports, flagSet_raisedWhen, flagSet_raisedWhen]
  cases n <;> simp [State.raisedAtSwitch, takeNotices] at apart ⊢

/-! ### The whole switch point -/

/-- What a switch point leaves, block by block. -/
structure Switched (xready : Bool) (s t : State) : Prop where
  pending : t.pending = s.pending
  resetLow : t.resetLow = s.resetLow
  rtg : t.rtg = rtgSwitch s.rtg
  inputs : ∀ i, ∃ src, t.bi.inputs.get i = { s.switchedInput xready (s.bi.inputs.get i) with requested := src }
  thresholds : t.bi.lMin = s.bi.lMin ∧ t.bi.lMax = s.bi.lMax
  locks : t.mes.locks = s.mes.locks
  counts : t.tc.manualDeferrals = (s.staged xready).tc.manualDeferrals
  lu : t.lu = (s.staged xready).lu
  cmp : t.cmp = s.closedClips
  tu : t.tu = publishedTally (s.staged xready)
  entries : t.cq.entries = s.cq.entries.filter fun e => e.target != s.rtg.counter + 1
  nextTag : t.cq.nextTag = s.cq.nextTag
  ss : t.ss = s.ss
  lastGranted : t.lastGranted = s.lastGranted
  picture : t.picture = (s.staged xready).picture
  flags : ∀ p n, n ∉ takeNotices → n ≠ .cueFail → flagSet (t.ports.get p).flags n =
    (flagSet (s.ports.get p).flags n || s.raisedAtSwitch xready n)

theorem switchPointWork_switched (xready : Bool) (s : State) : Switched xready s (switchPointWork xready s) := by
  obtain ⟨bi, locks, cmp, pending, resetLow, granted, ss, ports⟩ := copied_takeKeeps xready s
  obtain ⟨rtg, cq, -⟩ := staged_queues xready s
  obtain ⟨lMin, lMax⟩ := framed_thresholds xready s
  have take := staged_takeKeeps xready s
  have shown := published_keeps xready s
  have counter : (s.published xready).rtg = rtgSwitch s.rtg := shown.rtg.trans rtg
  have flags := published_flags xready s
  rw [switchPointWork_eq]
  generalize s.published xready = u at *
  have same := releaseDue_same u
  exact {
    pending := same.pending.trans (shown.pending.trans (take.pending.trans pending))
    resetLow := same.resetLow.trans (shown.resetLow.trans (take.resetLow.trans resetLow))
    rtg := same.rtg.trans counter
    inputs := fun i => by
      obtain ⟨src, h⟩ := same.inputs i
      exact ⟨src, by rw [← framed_input, ← bi, ← take.bi, ← shown.bi]; exact h⟩
    thresholds := by
      rw [← lMin, ← lMax, ← bi, ← take.bi, ← shown.bi]
      exact same.thresholds
    locks := same.locks.trans (shown.locks.trans (take.locks.trans locks))
    counts := same.counts.1.trans (congrArg Tc.manualDeferrals shown.tc)
    lu := same.lu.trans shown.lu
    cmp := same.cmp.trans (shown.cmp.trans (take.cmp.trans cmp))
    tu := same.tu.trans shown.tu
    entries := by
      rw [releaseDue_entries, shown.cq, cq]
      simp only [isDue, counter]
      rfl
    nextTag := (releaseDue_nextTag u).trans (congrArg Cq.nextTag (shown.cq.trans cq))
    ss := same.ss.trans (shown.ss.trans (take.ss.trans ss))
    lastGranted := same.lastGranted.trans (shown.lastGranted.trans (take.lastGranted.trans granted))
    picture := (releaseDue_commandKeeps u).frameKept.picture.trans shown.picture
    flags := fun p n apart other =>
      ((releaseDue_raises u p).other n (by simpa using other)).trans (flags p apart) }

end Sys2Proof.Machine
end

section
/-!
SUPPORT. The reference evaluation of a switch point, field by field (chapter 1).
-/

namespace Sys2Proof.Machine

theorem exec_switchPoint (xready : Bool) {s : State} (free : s.resetLow = false) :
    exec (.switchPoint xready) s = .next (switchPointWork xready s) :=
  congrArg Host.Outcome.next (unlessReset_of_free free _)

/-! ### The measurement (R5, R6) -/

theorem frameSamples_pos (r : Raster) : 0 < frameSamples r := by
  revert r
  decide

theorem referenceCondition_eq (r : Rtg) : referenceCondition r = match r.refMarker with
    | none => RefCond.absent
    | some _ =>
      if ((measuredPeriod r : Int) - lineSamples r.raster).natAbs ≤ 2 then .valid else .mismatch := by
  unfold referenceCondition
  cases r.refMarker with
  | none => rfl
  | some m => exact if_congr (by omega) rfl rfl

theorem exactPhase_of_marker {r : Rtg} {m : Nat} (marker : r.refMarker = some m) :
    ∃ n : Int, exactPhase r = (m : Int) - lineOne r + n * frameSamples r.raster
      ∧ -(frameSamples r.raster : Int) ≤ 2 * exactPhase r ∧ 2 * exactPhase r < frameSamples r.raster := by
  have some := frameSamples_pos r.raster
  simp only [exactPhase, marker, normalisePhase]
  generalize frameSamples r.raster = f at *
  generalize (m : Int) - lineOne r = raw
  have low := Int.emod_nonneg (raw + ((f / 2 : Nat) : Int)) (show (f : Int) ≠ 0 by omega)
  have high := Int.emod_lt_of_pos (raw + ((f / 2 : Nat) : Int)) (show (0 : Int) < f by omega)
  refine ⟨-((raw + ((f / 2 : Nat) : Int)) / f), ?_, by omega, by omega⟩
  rw [Int.emod_def]
  ring

/-! ### The evaluation under an enable (R7 to R12) -/

/-- The generator with the enable and the pending setup that are in force at the evaluation. -/
def Rtg.underEnable (r : Rtg) (on : Bool) : Rtg := { r with enable := on, pendingSetup := none }

/-- The state that the evaluation starts from with enable on (R7). -/
def Rtg.sought (r : Rtg) : LockState := if r.lock = .free then .seeking else r.lock

/-- The phase error in force after the measurement (R6). -/
def Rtg.measuredPhase (r : Rtg) : Int :=
  if referenceCondition r = .valid then saturatePhase (exactPhase r) else r.phaseErr

/-- The generator once the enable has acted and the reference is measured, with enable on. -/
def Rtg.measured (r : Rtg) : Rtg :=
  { r with lock := r.sought, cond := referenceCondition r, phaseErr := r.measuredPhase }

theorem applyEnable_on {r : Rtg} (on : r.enable = true) : applyEnable r = { r with lock := r.sought } := by
  unfold applyEnable Rtg.sought
  rw [if_pos on]
  split <;> rfl

theorem applyEnable_off {r : Rtg} (off : r.enable = false) : applyEnable r = clearCounts { r with lock := .free } := by
  simp [applyEnable, off]

theorem measureReference_eq (r : Rtg) :
    measureReference r = { r with cond := referenceCondition r, phaseErr := r.measuredPhase } := by
  by_cases valid : referenceCondition r = .valid
  · simp [measureReference, Rtg.measuredPhase, valid]
    rfl
  · simp [measureReference, Rtg.measuredPhase, valid]

theorem evaluateReference_off {r : Rtg} (off : r.enable = false) : evaluateReference r =
    { clearCounts { r with lock := .free } with cond := referenceCondition r, phaseErr := r.measuredPhase } := by
  unfold evaluateReference
  rw [applyEnable_off off, measureReference_eq]
  dsimp only
  rw [if_neg (by simp [clearCounts, off])]
  rfl

theorem evaluateReference_on {r : Rtg} (on : r.enable = true) : evaluateReference r = evaluateOn r.measured := by
  unfold evaluateReference
  rw [applyEnable_on on, measureReference_eq]
  dsimp only
  rw [if_pos on]
  rfl

/-- The enable has acted already when the pending setup has just been applied. -/
theorem evaluateReference_applyEnable (r : Rtg) : evaluateReference (applyEnable r) = evaluateReference r := by
  have again : applyEnable (applyEnable r) = applyEnable r := by
    cases on : r.enable
    · rw [applyEnable_off on, applyEnable_off (by simp [clearCounts, on])]
      rfl
    · rw [applyEnable_on on, applyEnable_on (by simp [on])]
      simp only [Rtg.sought]
      split <;> simp_all
  have enable : (applyEnable r).enable = r.enable := (applyEnable_fields r).2.1
  simp only [evaluateReference, again]

theorem crashLocks_applyEnable (r : Rtg) : crashLocks (applyEnable r) = crashLocks r := by
  cases on : r.enable
  · simp [applyEnable_off on, crashLocks, clearCounts, on]
  · rw [applyEnable_on on]
    have locked : r.sought = .locked ↔ r.lock = .locked := by
      unfold Rtg.sought
      split <;> simp_all
    simp only [crashLocks, ne_eq, locked]
    rfl

theorem exactPhase_applyEnable (r : Rtg) : exactPhase (applyEnable r) = exactPhase r := by
  unfold applyEnable
  split_ifs <;> rfl

/-! ### The whole of the RTG's work (R2, R10, R15) -/

/-- The enable in force at the coming switch point. -/
def Rtg.enableThere (r : Rtg) : Bool :=
  match r.pendingSetup with
  | some ts => ts.enable
  | none => r.enable

/-- The raster in force at the coming switch point. -/
def Rtg.rasterThere (r : Rtg) : Raster :=
  match r.pendingSetup with
  | some ts => ts.raster
  | none => r.raster

theorem rasterChanges_iff (r : Rtg) : rasterChanges r = true ↔ r.rasterThere ≠ r.raster := by
  unfold rasterChanges Rtg.rasterThere
  cases r.pendingSetup <;> simp

/-- With no raster change the pending setup does what the enable does. -/
theorem applyTimingSetup_same {r : Rtg} (same : r.rasterThere = r.raster) :
    applyTimingSetup r = r.underEnable r.enableThere
      ∨ applyTimingSetup r = applyEnable (r.underEnable r.enableThere) := by
  unfold applyTimingSetup Rtg.enableThere Rtg.underEnable
  unfold Rtg.rasterThere at same
  cases pending : r.pendingSetup with
  | none => exact .inl (by simp [← pending])
  | some ts =>
    simp only [pending] at same
    exact .inr (if_pos same)

/-- The RTG's work at a switch point that keeps the raster. -/
theorem rtgSwitch_same {r : Rtg} (same : r.rasterThere = r.raster) : rtgSwitch r =
    { evaluateReference (r.underEnable r.enableThere) with
      counter := r.counter + 1
      refMarker := none
      frameStart := switchTime r
      prevStart := r.frameStart
      frameLen := if crashLocks (r.underEnable r.enableThere)
        then ((frameSamples r.raster : Int) + exactPhase r).toNat else frameSamples r.raster } := by
  have unchanged : rasterChanges r = false := by
    rw [← Bool.not_eq_true, rasterChanges_iff]
    exact not_not.2 same
  have evaluated : evaluateReference (applyTimingSetup r) = evaluateReference (r.underEnable r.enableThere) := by
    rcases applyTimingSetup_same same with e | e <;> rw [e]
    exact evaluateReference_applyEnable _
  have crash : crashLocks (applyTimingSetup r) = crashLocks (r.underEnable r.enableThere) := by
    rcases applyTimingSetup_same same with e | e <;> rw [e]
    exact crashLocks_applyEnable _
  have phase : exactPhase (applyTimingSetup r) = exactPhase r := by
    rcases applyTimingSetup_same same with e | e <;> rw [e]
    · rfl
    · exact exactPhase_applyEnable _
  obtain ⟨-, -, -, raster⟩ := evaluateReference_fields (r.underEnable r.enableThere)
  have length : frameSamples (evaluateReference (r.underEnable r.enableThere)).raster = frameSamples r.raster :=
    congrArg frameSamples raster
  simp only [rtgSwitch, unchanged, evaluated, crash, phase, length, Bool.false_eq_true, if_false, Bool.not_false,
    Bool.true_and]

/-- The RTG's work at a raster change: no evaluation (R15). -/
theorem rtgSwitch_changed {r : Rtg} (other : r.rasterThere ≠ r.raster) : rtgSwitch r =
    { r with
      raster := r.rasterThere
      enable := r.enableThere
      pendingSetup := none
      lock := if r.enableThere then .seeking else .free
      cond := .absent
      linePeriods := []
      lastEdge := none
      miss := 0
      inWindow := 0
      outCount := 0
      trimLimit := false
      counter := r.counter + 1
      refMarker := none
      frameStart := switchTime r
      prevStart := r.frameStart
      frameLen := frameSamples r.rasterThere } := by
  have changed : rasterChanges r = true := (rasterChanges_iff r).2 other
  unfold Rtg.rasterThere at other
  cases pending : r.pendingSetup with
  | none => simp [pending] at other
  | some ts =>
    simp only [pending] at other
    have there : r.rasterThere = ts.raster := by simp [Rtg.rasterThere, pending]
    have on : r.enableThere = ts.enable := by simp [Rtg.enableThere, pending]
    rw [there, on]
    simp [rtgSwitch, changed, applyTimingSetup_of_pending pending, other]

/-! ### The evaluation of a VALID reference (R9, R11, R12) -/

theorem stepTrim_eq (e : Int) (r : Rtg) : stepTrim e r =
    { r with
      trim := if 1 < e ∧ -200 < r.trim then r.trim - 1
        else if e < -1 ∧ r.trim < 200 then r.trim + 1 else r.trim
      trimLimit := decide ((1 < e ∧ r.trim ≤ -200) ∨ (e < -1 ∧ 200 ≤ r.trim)) } := by
  unfold stepTrim
  split_ifs <;> simp [*] <;> omega

theorem evaluateSeeking_far {e : Int} {r : Rtg} (far : 8 < e.natAbs) : evaluateSeeking e r = { r with inWindow := 0 } :=
  if_pos far

theorem evaluateSeeking_near {e : Int} {r : Rtg} (near : e.natAbs ≤ 8) (few : r.inWindow < 3) :
    evaluateSeeking e r = { r with inWindow := r.inWindow + 1 } :=
  (if_neg (Nat.not_lt.2 near)).trans (if_pos (Nat.succ_lt_succ few))

theorem evaluateSeeking_locks {e : Int} {r : Rtg} (near : e.natAbs ≤ 8) (many : 3 ≤ r.inWindow) :
    evaluateSeeking e r = { r with lock := .locked, inWindow := 0, outCount := 0 } :=
  (if_neg (Nat.not_lt.2 near)).trans (if_neg (Nat.not_lt.2 (Nat.succ_le_succ many)))

theorem evaluateLocked_near {e : Int} {r : Rtg} (near : e.natAbs ≤ 8) : evaluateLocked e r = { r with outCount := 0 } :=
  if_pos near

theorem evaluateLocked_first {e : Int} {r : Rtg} (far : 8 < e.natAbs) (first : r.outCount = 0) :
    evaluateLocked e r = { r with outCount := 1 } :=
  (if_neg (Nat.not_le.2 far)).trans ((if_pos (by omega)).trans (by rw [first]))

theorem evaluateLocked_second {e : Int} {r : Rtg} (far : 8 < e.natAbs) (second : 1 ≤ r.outCount) :
    evaluateLocked e r = { r with lock := .seeking, outCount := 0, inWindow := 0 } :=
  (if_neg (Nat.not_le.2 far)).trans (if_neg (by omega))

/-- Outside LOCKED the evaluation of a VALID reference is that of SEEKING (R9). -/
theorem evaluateOn_seeking {r : Rtg} (valid : r.cond = .valid) (open_ : r.lock ≠ .locked) : evaluateOn r =
    stepTrim r.phaseErr (evaluateSeeking r.phaseErr { r with miss := 0, lock := .seeking }) := by
  unfold evaluateOn evaluateValid
  simp only [valid]
  cases lock : r.lock <;> simp [lock] at open_ ⊢

theorem evaluateOn_locked {r : Rtg} (valid : r.cond = .valid) (locked : r.lock = .locked) : evaluateOn r =
    stepTrim r.phaseErr (evaluateLocked r.phaseErr { r with miss := 0 }) := by
  unfold evaluateOn evaluateValid
  simp only [valid, locked]

theorem evaluateOn_invalid {r : Rtg} (invalid : r.cond ≠ .valid) : evaluateOn r = evaluateInvalid r := by
  unfold evaluateOn
  cases cond : r.cond <;> simp [cond] at invalid ⊢

theorem evaluateSeeking_trim (e : Int) (r : Rtg) : (evaluateSeeking e r).trim = r.trim
    ∧ (evaluateSeeking e r).miss = r.miss ∧ (evaluateSeeking e r).cond = r.cond
    ∧ (evaluateSeeking e r).phaseErr = r.phaseErr := by
  unfold evaluateSeeking
  split_ifs <;> exact ⟨rfl, rfl, rfl, rfl⟩

theorem evaluateLocked_trim (e : Int) (r : Rtg) : (evaluateLocked e r).trim = r.trim
    ∧ (evaluateLocked e r).miss = r.miss ∧ (evaluateLocked e r).cond = r.cond
    ∧ (evaluateLocked e r).phaseErr = r.phaseErr := by
  unfold evaluateLocked
  split_ifs <;> exact ⟨rfl, rfl, rfl, rfl⟩

/-- What every evaluation of a VALID reference leaves (R12). -/
theorem evaluateOn_valid {r : Rtg} (valid : r.cond = .valid) : (evaluateOn r).miss = 0
    ∧ (evaluateOn r).cond = .valid ∧ (evaluateOn r).phaseErr = r.phaseErr
    ∧ (evaluateOn r).trim = (if 1 < r.phaseErr ∧ -200 < r.trim then r.trim - 1
        else if r.phaseErr < -1 ∧ r.trim < 200 then r.trim + 1 else r.trim)
    ∧ ((evaluateOn r).trimLimit = true ↔
        (1 < r.phaseErr ∧ r.trim ≤ -200) ∨ (r.phaseErr < -1 ∧ 200 ≤ r.trim)) := by
  by_cases locked : r.lock = .locked
  · obtain ⟨trim, miss, cond, phase⟩ := evaluateLocked_trim r.phaseErr { r with miss := 0 }
    rw [evaluateOn_locked valid locked, stepTrim_eq]
    exact ⟨miss, cond.trans valid, phase, by simp only [trim], by simp only [trim, decide_eq_true_eq]⟩
  · obtain ⟨trim, miss, cond, phase⟩ := evaluateSeeking_trim r.phaseErr { r with miss := 0, lock := .seeking }
    rw [evaluateOn_seeking valid locked, stepTrim_eq]
    exact ⟨miss, cond.trans valid, phase, by simp only [trim], by simp only [trim, decide_eq_true_eq]⟩

theorem evaluateOn_measured (r : Rtg) : (evaluateOn r).cond = r.cond ∧ (evaluateOn r).phaseErr = r.phaseErr := by
  by_cases valid : r.cond = .valid
  · obtain ⟨-, cond, phase, -⟩ := evaluateOn_valid valid
    exact ⟨cond.trans valid.symm, phase⟩
  · rw [evaluateOn_invalid valid]
    exact ⟨rfl, rfl⟩

theorem evaluateReference_measured (r : Rtg) : (evaluateReference r).cond = referenceCondition r
    ∧ (evaluateReference r).phaseErr = r.measuredPhase := by
  cases on : r.enable
  · rw [evaluateReference_off on]
    exact ⟨rfl, rfl⟩
  · rw [evaluateReference_on on]
    exact evaluateOn_measured _

/-- The enable, the raster and the counter that a switch point puts in force (R3, R15). -/
theorem rtgSwitch_force (r : Rtg) : (rtgSwitch r).raster = r.rasterThere ∧ (rtgSwitch r).enable = r.enableThere
    ∧ (rtgSwitch r).pendingSetup = none := by
  by_cases same : r.rasterThere = r.raster
  · obtain ⟨-, enable, pending, raster⟩ := evaluateReference_fields (r.underEnable r.enableThere)
    rw [rtgSwitch_same same]
    exact ⟨raster.trans same.symm, enable, pending⟩
  · rw [rtgSwitch_changed same]
    exact ⟨rfl, rfl, rfl⟩

theorem saturatePhase_beyond (e : Int) : 64 < (saturatePhase e).natAbs ↔ 64 < e.natAbs := by
  unfold saturatePhase
  omega

theorem lineOne_eq (r : Rtg) :
    lineOne r = ((r.frameStart + r.frameLen : Nat) : Int) - 6 * lineSamples r.raster := by
  simp [lineOne, switchTime, switchLead]

/-- The frame that a switch point begins under enable: shortened or lengthened by a crash-lock alone (R10). -/
theorem rtgSwitch_frameLen {r : Rtg} (same : r.rasterThere = r.raster) : (rtgSwitch r).frameLen =
    if r.enableThere = true ∧ referenceCondition r = .valid ∧ r.lock ≠ .locked ∧ 64 < (exactPhase r).natAbs
      then ((frameSamples r.raster : Int) + exactPhase r).toNat else frameSamples r.raster := by
  rw [rtgSwitch_same same]
  refine if_congr ?_ rfl rfl
  simp only [crashLocks, Bool.and_eq_true, decide_eq_true_eq, and_assoc]
  exact Iff.rfl

section Under
variable {r : Rtg} (same : r.rasterThere = r.raster)
include same

/-- With the enable off the state is FREE and the counts are clear (R7). -/
theorem rtgSwitch_off (off : r.enableThere = false) : (rtgSwitch r).lock = .free ∧ (rtgSwitch r).miss = 0
    ∧ (rtgSwitch r).inWindow = 0 ∧ (rtgSwitch r).outCount = 0 ∧ (rtgSwitch r).trimLimit = false
    ∧ (rtgSwitch r).trim = r.trim := by
  rw [rtgSwitch_same same, evaluateReference_off off]
  exact ⟨rfl, rfl, rfl, rfl, rfl, rfl⟩

/-- An invalid reference counts a miss, and three of them are HOLDOVER (R8). -/
theorem rtgSwitch_invalid (on : r.enableThere = true) (invalid : referenceCondition r ≠ .valid) :
    (rtgSwitch r).miss = min 3 (r.miss + 1) ∧ (rtgSwitch r).inWindow = 0 ∧ (rtgSwitch r).outCount = 0
    ∧ (rtgSwitch r).trimLimit = false ∧ (rtgSwitch r).trim = r.trim
    ∧ (rtgSwitch r).lock = (if 2 ≤ r.miss then .holdover else if r.lock = .free then .seeking else r.lock) := by
  rw [rtgSwitch_same same, evaluateReference_on on, evaluateOn_invalid invalid]
  exact ⟨rfl, rfl, rfl, rfl, rfl, if_congr (show min 3 (r.miss + 1) = 3 ↔ 2 ≤ r.miss by omega) rfl rfl⟩

/-- SEEKING: four evaluations within 8 in a row lock (R9). -/
theorem rtgSwitch_seeking (on : r.enableThere = true) (valid : referenceCondition r = .valid)
    (open_ : r.lock ≠ .locked) :
    let e := r.measuredPhase
    (8 < e.natAbs → (rtgSwitch r).lock = .seeking ∧ (rtgSwitch r).inWindow = 0)
    ∧ (e.natAbs ≤ 8 → r.inWindow < 3 → (rtgSwitch r).lock = .seeking ∧ (rtgSwitch r).inWindow = r.inWindow + 1)
    ∧ (e.natAbs ≤ 8 → 3 ≤ r.inWindow →
        (rtgSwitch r).lock = .locked ∧ (rtgSwitch r).inWindow = 0 ∧ (rtgSwitch r).outCount = 0) := by
  have sought : (r.underEnable r.enableThere).sought ≠ .locked := by
    unfold Rtg.sought
    split
    · nofun
    · exact open_
  rw [rtgSwitch_same same, evaluateReference_on on, evaluateOn_seeking valid sought, stepTrim_eq]
  have step := @evaluateSeeking_near r.measuredPhase
    { (r.underEnable r.enableThere).measured with miss := 0, lock := .seeking }
  have locks := @evaluateSeeking_locks r.measuredPhase
    { (r.underEnable r.enableThere).measured with miss := 0, lock := .seeking }
  exact ⟨fun far => ⟨congrArg Rtg.lock (evaluateSeeking_far far), congrArg Rtg.inWindow (evaluateSeeking_far far)⟩,
    fun near few => ⟨congrArg Rtg.lock (step near few), congrArg Rtg.inWindow (step near few)⟩,
    fun near many => ⟨congrArg Rtg.lock (locks near many), congrArg Rtg.inWindow (locks near many),
      congrArg Rtg.outCount (locks near many)⟩⟩

/-- LOCKED: a second evaluation beyond 8 in a row seeks again (R11). -/
theorem rtgSwitch_locked (on : r.enableThere = true) (valid : referenceCondition r = .valid)
    (locked : r.lock = .locked) :
    let e := r.measuredPhase
    (e.natAbs ≤ 8 → (rtgSwitch r).lock = .locked ∧ (rtgSwitch r).outCount = 0)
    ∧ (8 < e.natAbs → r.outCount = 0 → (rtgSwitch r).lock = .locked ∧ (rtgSwitch r).outCount = 1)
    ∧ (8 < e.natAbs → 1 ≤ r.outCount →
        (rtgSwitch r).lock = .seeking ∧ (rtgSwitch r).outCount = 0 ∧ (rtgSwitch r).inWindow = 0) := by
  have sought : (r.underEnable r.enableThere).sought = .locked := by
    simp [Rtg.sought, Rtg.underEnable, locked]
  rw [rtgSwitch_same same, evaluateReference_on on, evaluateOn_locked valid sought, stepTrim_eq]
  have step := @evaluateLocked_first r.measuredPhase { (r.underEnable r.enableThere).measured with miss := 0 }
  have seeks := @evaluateLocked_second r.measuredPhase { (r.underEnable r.enableThere).measured with miss := 0 }
  exact ⟨fun near => ⟨(congrArg Rtg.lock (evaluateLocked_near near)).trans sought,
      congrArg Rtg.outCount (evaluateLocked_near near)⟩,
    fun far first => ⟨(congrArg Rtg.lock (step far first)).trans sought, congrArg Rtg.outCount (step far first)⟩,
    fun far second => ⟨congrArg Rtg.lock (seeks far second), congrArg Rtg.outCount (seeks far second),
      congrArg Rtg.inWindow (seeks far second)⟩⟩

/-- A VALID reference clears the miss count and steps the trim (R12). -/
theorem rtgSwitch_valid (on : r.enableThere = true) (valid : referenceCondition r = .valid) :
    (rtgSwitch r).miss = 0
    ∧ (rtgSwitch r).trim = (if 1 < r.measuredPhase ∧ -200 < r.trim then r.trim - 1
        else if r.measuredPhase < -1 ∧ r.trim < 200 then r.trim + 1 else r.trim)
    ∧ ((rtgSwitch r).trimLimit = true ↔
        (1 < r.measuredPhase ∧ r.trim ≤ -200) ∨ (r.measuredPhase < -1 ∧ 200 ≤ r.trim)) := by
  rw [rtgSwitch_same same, evaluateReference_on on]
  obtain ⟨miss, -, -, trim⟩ := evaluateOn_valid (r := (r.underEnable r.enableThere).measured) valid
  exact ⟨miss, trim⟩

end Under

/-- Settles O36: the raster change apart, the evaluation goes by the enable, the condition and the state. -/
theorem lockStateMachineAtSwitchPoint : Obligations.LockStateMachineAtSwitchPoint := by
  intro xready s free r raster on f lineOne' cond
  refine ⟨_, exec_switchPoint xready free, ?_⟩
  have switched := switchPointWork_switched xready s
  have rtg := switched.rtg
  have flags := switched.flags
  generalize switchPointWork xready s = t at *
  intro v
  have hv : v = rtgSwitch r := rtg
  have raster_eq : r.rasterThere = raster := rfl
  have on_eq : r.enableThere = on := rfl
  have cond_eq : referenceCondition r = cond := referenceCondition_eq r
  obtain ⟨raster', enable', pending'⟩ := rtgSwitch_force r
  rw [hv]
  refine ⟨rfl, raster', enable', pending', rfl, fun p => ?_, fun other => ?_, fun same => ⟨exactPhase r, ?_, ?_⟩⟩
  · have ref := flags p .ref (by decide) (by decide)
    rw [ref]
    exact ⟨fun moved => by rw [show s.raisedAtSwitch xready .ref = true from decide_eq_true moved, Bool.or_true],
      fun stands => by
        rw [show s.raisedAtSwitch xready .ref = false from decide_eq_false (not_not.2 stands), Bool.or_false]⟩
  · rw [rtgSwitch_changed other]
    exact ⟨rfl, rfl, rfl, rfl, rfl, rfl, rfl, rfl, rfl, rfl⟩
  · intro m marker
    obtain ⟨n, phase, low, high⟩ := exactPhase_of_marker marker
    exact ⟨n, phase.trans (by rw [lineOne_eq]), low, high⟩
  · intro e
    have phase : r.measuredPhase = if cond = .valid then e else r.phaseErr := by rw [← cond_eq]; rfl
    have measured : ∀ valid : cond = .valid, r.measuredPhase = e := fun valid => phase.trans (if_pos valid)
    have beyond : 64 < e.natAbs ↔ 64 < (exactPhase r).natAbs := saturatePhase_beyond _
    obtain ⟨condition, phaseErr⟩ := evaluateReference_measured (r.underEnable r.enableThere)
    refine ⟨?_, ?_, fun off => ?_, fun on' invalid => ?_, fun on' valid unlocked => ?_, fun on' valid locked => ?_,
      fun on' valid => ?_⟩
    · rw [rtgSwitch_same same]
      exact condition.trans cond_eq
    · rw [rtgSwitch_same same]
      exact phaseErr.trans phase
    · obtain ⟨lock, miss, inWindow, outCount, limit, trim⟩ := rtgSwitch_off same off
      refine ⟨lock, miss, inWindow, outCount, limit, trim, ?_⟩
      rw [rtgSwitch_frameLen same, on_eq, if_neg (by simp [off])]
    · obtain ⟨miss, inWindow, outCount, limit, trim, lock⟩ := rtgSwitch_invalid same on' (cond_eq.trans_ne invalid)
      refine ⟨miss, inWindow, outCount, limit, trim, ?_, lock⟩
      rw [rtgSwitch_frameLen same, cond_eq, if_neg (by simp [invalid])]
    · obtain ⟨far, near, locks⟩ := rtgSwitch_seeking same on' (cond_eq.trans valid) unlocked
      obtain ⟨miss, -⟩ := rtgSwitch_valid same on' (cond_eq.trans valid)
      rw [measured valid] at far near locks
      refine ⟨miss, ?_, far, near, locks⟩
      rw [rtgSwitch_frameLen same]
      exact if_congr (by simp [beyond, on_eq, on', cond_eq, valid, unlocked]) rfl rfl
    · obtain ⟨near, first, second⟩ := rtgSwitch_locked same on' (cond_eq.trans valid) locked
      obtain ⟨miss, -⟩ := rtgSwitch_valid same on' (cond_eq.trans valid)
      rw [measured valid] at near first second
      refine ⟨miss, ?_, near, first, second⟩
      rw [rtgSwitch_frameLen same, if_neg (by simp [locked])]
    · obtain ⟨-, trim⟩ := rtgSwitch_valid same on' (cond_eq.trans valid)
      rwa [measured valid] at trim

end Sys2Proof.Machine
end

section
/-!
SUPPORT. The inputs and the published tally of a switch point (chapters 2 and 8).
-/

namespace Sys2Proof.Machine

/-! ### Contribution depends on the picture alone (R129, R130) -/

theorem onProgram_of_picture {s t : State} (h : t.picture = s.picture) (i : InputId) :
    onProgram t i = onProgram s i := by
  cases i <;>
    simp only [onProgram, keyerOnProgram, isLinear, inFlightSelection_of_picture h, picture_onAir h, picture_pos h,
      picture_role h, picture_live h]

theorem backgroundAtEnd_of_picture {s t : State} (h : t.picture = s.picture) :
    backgroundAtEnd t = backgroundAtEnd s := by
  simp only [backgroundAtEnd, previewSelection_of_picture h, picture_role h]

theorem onPreview_of_picture {s t : State} (h : t.picture = s.picture) (i : InputId) :
    onPreview t i = onPreview s i := by
  cases i <;>
    simp only [onPreview, onAirAtEnd, backgroundAtEnd_of_picture h, isLinear, previewSelection_of_picture h,
      picture_onAir h, picture_live h]

/-! ### One input at a switch point (R25, R28 to R32) -/

/-- The live source of an input after the issues have gone live. -/
def State.liveThere (s : State) (i : InputRec) : Source :=
  if s.tc.resetPending then 124 else if i.awaiting then i.issued else i.live

/-- The settling count of an external input before the judgement. -/
def State.settleThere (s : State) (i : InputRec) : Nat :=
  if settleDirective s.rtg then 2 else if s.tc.resetPending then 0 else if i.awaiting then 2 else i.settle

theorem issueInput_judged (i : InputRec) : (issueInput i).live = i.live ∧ (issueInput i).status = i.status
    ∧ (issueInput i).lastJudged = i.lastJudged ∧ (issueInput i).advance = i.advance
    ∧ (issueInput i).settle = i.settle ∧ (issueInput i).faulted = i.faulted := by
  unfold issueInput
  split <;> exact ⟨rfl, rfl, rfl, rfl, rfl, rfl⟩

theorem judgeInput_internal {r : Rtg} {lMin lMax : Nat} {i : InputRec} (internal : isExternal i.live = false) :
    judgeInput r lMin lMax i =
      { i with status := .internal, lastJudged := .internal, advance := none, settle := 0, faulted := false } := by
  simp [judgeInput, internal, setStatus]

theorem judgeInput_settled {r : Rtg} {lMin lMax : Nat} {i : InputRec} (external : isExternal i.live = true)
    (settled : i.settle = 0) : judgeInput r lMin lMax i =
      { i with
        status := settledStatus lMin lMax (measureInput r i)
        lastJudged := settledStatus lMin lMax (measureInput r i)
        advance := measureInput r i
        faulted := outsideWindow lMin lMax (measureInput r i) } := by
  have judged : settledStatus lMin lMax (measureInput r i) ≠ .settling := by
    unfold settledStatus
    split
    · nofun
    · split_ifs <;> nofun
  simp [judgeInput, external, settled, setStatus, judged]

theorem judgeInput_settling {r : Rtg} {lMin lMax : Nat} {i : InputRec} (external : isExternal i.live = true)
    (settling : i.settle ≠ 0) : judgeInput r lMin lMax i =
      { i with
        status := .settling
        advance := measureInput r i
        settle := i.settle - 1
        faulted := outsideWindow lMin lMax (measureInput r i) } := by
  simp [judgeInput, external, settling, setStatus]

/-- An input after its issue has gone live. -/
def State.wentLive (s : State) (i : InputRec) : InputRec := if s.tc.resetPending then blackInput i else goLiveInput i

/-- An input after a directive has restarted its settling. -/
def State.settledInput (s : State) (i : InputRec) : InputRec :=
  if settleDirective s.rtg then settleInput (s.wentLive i) else s.wentLive i

theorem goLiveInput_fields (i : InputRec) : (goLiveInput i).live = (if i.awaiting then i.issued else i.live)
    ∧ (goLiveInput i).marker = i.marker ∧ (goLiveInput i).lastJudged = i.lastJudged
    ∧ (isExternal (goLiveInput i).live = true → (goLiveInput i).settle = if i.awaiting then 2 else i.settle) := by
  unfold goLiveInput
  split_ifs with awaits external
  · exact ⟨rfl, rfl, rfl, fun _ => rfl⟩
  · exact ⟨rfl, rfl, rfl, fun e => absurd e external⟩
  · exact ⟨rfl, rfl, rfl, fun _ => rfl⟩

theorem wentLive_fields (s : State) (i : InputRec) : (s.wentLive i).live = s.liveThere i
    ∧ (s.wentLive i).marker = i.marker ∧ (s.wentLive i).lastJudged = i.lastJudged
    ∧ (isExternal (s.wentLive i).live = true →
      (s.wentLive i).settle = if s.tc.resetPending then 0 else if i.awaiting then 2 else i.settle) := by
  unfold State.wentLive State.liveThere
  split
  · exact ⟨rfl, rfl, rfl, fun _ => rfl⟩
  · exact goLiveInput_fields i

theorem settledInput_fields (s : State) (i : InputRec) : (s.settledInput i).live = s.liveThere i
    ∧ (s.settledInput i).marker = i.marker ∧ (s.settledInput i).lastJudged = i.lastJudged
    ∧ (isExternal (s.liveThere i) = true → (s.settledInput i).settle = s.settleThere i) := by
  obtain ⟨live, marker, judged, count⟩ := wentLive_fields s i
  rw [live] at count
  unfold State.settledInput State.settleThere settleInput
  cases settleDirective s.rtg with
  | false => exact ⟨live, marker, judged, count⟩
  | true =>
    simp only [if_true, live]
    split
    · exact ⟨rfl, marker, judged, fun _ => rfl⟩
    · next internal => exact ⟨live, marker, judged, fun e => absurd e internal⟩

theorem switchedInput_eq (xready : Bool) (s : State) (i : InputRec) : s.switchedInput xready i =
    let judged := judgeInput s.rtg s.bi.lMin s.bi.lMax (s.settledInput i)
    if xready then issueInput judged else judged := rfl

theorem measureInput_of_marker {r : Rtg} {i j : InputRec} (h : i.marker = j.marker) :
    measureInput r i = measureInput r j := by
  simp only [measureInput, h]

/-- What a switch point leaves of an input, by its live source and its settling count. -/
theorem switchedInput_fields (xready : Bool) (s : State) (i : InputRec) :
    let now := s.switchedInput xready i
    let measured := measureInput s.rtg i
    let judged := settledStatus s.bi.lMin s.bi.lMax measured
    now.live = s.liveThere i
    ∧ (isExternal (s.liveThere i) = false → now.status = .internal ∧ now.lastJudged = .internal ∧ now.advance = none
        ∧ now.settle = 0 ∧ now.faulted = false)
    ∧ (isExternal (s.liveThere i) = true →
        now.advance = measured ∧ now.faulted = outsideWindow s.bi.lMin s.bi.lMax measured
        ∧ (s.settleThere i = 0 → now.status = judged ∧ now.lastJudged = judged ∧ now.settle = 0)
        ∧ (s.settleThere i ≠ 0 → now.status = .settling ∧ now.lastJudged = i.lastJudged
            ∧ now.settle = s.settleThere i - 1)) := by
  obtain ⟨live, marker, lastJudged, count⟩ := settledInput_fields s i
  have measured : measureInput s.rtg (s.settledInput i) = measureInput s.rtg i := measureInput_of_marker marker
  have issued : ∀ j, (if xready then issueInput j else j).live = j.live
      ∧ (if xready then issueInput j else j).status = j.status
      ∧ (if xready then issueInput j else j).lastJudged = j.lastJudged
      ∧ (if xready then issueInput j else j).advance = j.advance
      ∧ (if xready then issueInput j else j).settle = j.settle
      ∧ (if xready then issueInput j else j).faulted = j.faulted := fun j => by
    cases xready
    · exact ⟨rfl, rfl, rfl, rfl, rfl, rfl⟩
    · exact issueInput_judged j
  obtain ⟨liveOf, statusOf, judgedOf, advanceOf, settleOf, faultedOf⟩ :=
    issued (judgeInput s.rtg s.bi.lMin s.bi.lMax (s.settledInput i))
  dsimp only
  rw [switchedInput_eq]
  dsimp only
  rw [liveOf, statusOf, judgedOf, advanceOf, settleOf, faultedOf]
  cases external : isExternal (s.liveThere i)
  · rw [judgeInput_internal (by rw [live, external])]
    exact ⟨live, fun _ => ⟨rfl, rfl, rfl, rfl, rfl⟩, nofun⟩
  · have settle := count external
    by_cases settled : s.settleThere i = 0
    · rw [judgeInput_settled (by rw [live, external]) (settle.trans settled), measured]
      exact ⟨live, nofun, fun _ => ⟨rfl, rfl, fun _ => ⟨rfl, rfl, settle.trans settled⟩, fun h => absurd settled h⟩⟩
    · rw [judgeInput_settling (by rw [live, external]) (settle.trans_ne settled), measured]
      exact ⟨live, nofun, fun _ => ⟨rfl, rfl, fun h => absurd h settled,
        fun _ => ⟨rfl, lastJudged, congrArg (· - 1) settle⟩⟩⟩

/-- The measurement as the advance in whole lines from the marker to line 1 (R28). -/
theorem measureInput_eq (r : Rtg) (i : InputRec) : measureInput r i = match i.marker with
    | none => none
    | some m =>
      if m < r.prevStart then none
      else if lineOne r ≤ m then some 0
      else some (min 15 ((lineOne r - m).toNat / lineSamples r.raster)) := by
  unfold measureInput
  cases i.marker with
  | none => rfl
  | some m =>
    refine if_congr Iff.rfl rfl ?_
    split
    · next early => simp [advanceOf, Int.toNat_of_nonpos (show lineOne r - (m : Int) ≤ 0 by omega)]
    · rfl

theorem outsideWindow_eq (lMin lMax : Nat) (measured : Option Nat) :
    outsideWindow lMin lMax measured = decide (settledStatus lMin lMax measured ≠ .aligned) := by
  cases measured with
  | none => rfl
  | some a =>
    by_cases late : a < lMin
    · simp [outsideWindow, settledStatus, late]
    · by_cases early : lMax < a <;> simp [outsideWindow, settledStatus, late, early]

/-- A settling directive as a raster change or a crash-lock (R10, R15). -/
theorem settleDirective_eq (r : Rtg) : settleDirective r =
    (decide (r.rasterThere ≠ r.raster)
      || (r.enableThere && decide (referenceCondition r = .valid) && decide (r.lock ≠ .locked)
        && decide (64 < (exactPhase r).natAbs))) := by
  by_cases same : r.rasterThere = r.raster
  · have unchanged : rasterChanges r = false := by
      rw [← Bool.not_eq_true, rasterChanges_iff]
      exact not_not.2 same
    have crash : crashLocks (applyTimingSetup r) = crashLocks (r.underEnable r.enableThere) := by
      rcases applyTimingSetup_same same with e | e <;> rw [e]
      exact crashLocks_applyEnable _
    rw [settleDirective, unchanged, crash, decide_eq_false (not_not.2 same), Bool.false_or, Bool.false_or]
    rfl
  · rw [settleDirective, (rasterChanges_iff r).2 same, decide_eq_true same, Bool.true_or, Bool.true_or]

theorem staged_input (xready : Bool) (s : State) (i : InputId) :
    (s.staged xready).bi.inputs.get i = s.switchedInput xready (s.bi.inputs.get i) := by
  obtain ⟨bi, -⟩ := copied_takeKeeps xready s
  rw [(staged_takeKeeps xready s).bi, bi, framed_input]

theorem badStatus_eq (st : InputStatus) : badStatus st = decide (st = .late ∨ st = .early ∨ st = .absent) := by
  cases st <;> rfl

theorem alignmentChanged_iff (before after : InputRec) : alignmentChanged before after = true ↔
    after.status ≠ .settling ∧ after.status ≠ before.lastJudged
      ∧ (badStatus after.status = true ∨ badStatus before.lastJudged = true) := by
  simp [alignmentChanged, and_assoc]

/-- INPUT is raised when a status that changed contributes in the frame that begins (R33). -/
theorem raisedAtSwitch_input {xready : Bool} {s t : State} (h : Switched xready s t) :
    s.raisedAtSwitch xready .input = true ↔ ∃ i : InputId, (t.bi.inputs.get i).status ≠ .settling
      ∧ (t.bi.inputs.get i).status ≠ (s.bi.inputs.get i).lastJudged
      ∧ (badStatus (t.bi.inputs.get i).status = true ∨ badStatus (s.bi.inputs.get i).lastJudged = true)
      ∧ (onProgram t i = true ∨ onPreview t i = true) := by
  have status : ∀ i, ((s.staged xready).input i).status = (t.bi.inputs.get i).status := fun i => by
    obtain ⟨src, same⟩ := h.inputs i
    rw [same, State.input, staged_input]
  simp only [State.raisedAtSwitch, List.any_eq_true, mem_allInputs, true_and, Bool.and_eq_true, Bool.or_eq_true,
    alignmentChanged_iff, status, ← onProgram_of_picture h.picture, ← onPreview_of_picture h.picture, and_assoc]

/-- The test of a crash-lock, from the marker of the reference (R5, R6, R10). -/
theorem crashTest_eq (r : Rtg) :
    (decide (referenceCondition r = .valid) && decide (64 < (exactPhase r).natAbs)) = match r.refMarker with
      | none => false
      | some m => decide (|(measuredPeriod r : Int) - lineSamples r.raster| ≤ 2)
        && decide (64 < |((m : Int) - lineOne r + (frameSamples r.raster : Int) / 2) % frameSamples r.raster
          - (frameSamples r.raster : Int) / 2|) := by
  rw [referenceCondition_eq]
  cases marker : r.refMarker with
  | none => rfl
  | some m =>
    have phase : exactPhase r = ((m : Int) - lineOne r + (frameSamples r.raster : Int) / 2) % frameSamples r.raster
        - (frameSamples r.raster : Int) / 2 := by
      simp [exactPhase, marker, normalisePhase]
    dsimp only
    rw [← phase]
    have near : ∀ e : Int, |e| ≤ 2 ↔ e.natAbs ≤ 2 := fun e => by rw [Int.abs_eq_natAbs]; omega
    have far : ∀ e : Int, 64 < |e| ↔ 64 < e.natAbs := fun e => by rw [Int.abs_eq_natAbs]; omega
    simp only [near, far]
    split <;> simp [*]

/-- Settles O60: input by input, and the notice from the inputs as the frame take left them. -/
theorem switchPointJudgesInputs : Obligations.SwitchPointJudgesInputs := by
  intro xready s free lineOne' f raster on phaseBeyond matched restarts bad
  refine ⟨_, exec_switchPoint xready free, ?_⟩
  have switched := switchPointWork_switched xready s
  generalize switchPointWork xready s = t at *
  have line : lineOne s.rtg = lineOne' := lineOne_eq s.rtg
  have directive : settleDirective s.rtg = restarts := by
    rw [settleDirective_eq]
    refine congrArg₂ or rfl ?_
    have crash := crashTest_eq s.rtg
    rw [line] at crash
    rw [Bool.and_assoc, Bool.and_assoc, Bool.and_left_comm (decide (referenceCondition s.rtg = .valid)), crash,
      Bool.and_assoc, Bool.and_assoc]
    refine congrArg₂ and rfl (congrArg₂ and rfl ?_)
    cases marker : s.rtg.refMarker with
    | none => simp [phaseBeyond, marker]
    | some m => simp [phaseBeyond, marker, matched, f]
  refine ⟨fun i => ?_, fun p => ?_⟩
  · intro was now live measured count judged
    obtain ⟨src, same⟩ := switched.inputs i
    obtain ⟨lives, internal, external⟩ := switchedInput_fields xready s was
    have now_eq : now = { s.switchedInput xready was with requested := src } := same
    have live_eq : s.liveThere was = live := rfl
    have measured_eq : measureInput s.rtg was = measured := by
      rw [measureInput_eq, line] <;> rfl
    have count_eq : s.settleThere was = count := by
      rw [State.settleThere, directive]
    have judged_eq : settledStatus s.bi.lMin s.bi.lMax measured = judged := rfl
    rw [now_eq]
    rw [measured_eq, count_eq, outsideWindow_eq, judged_eq] at external
    refine ⟨lives, fun h => internal (decide_eq_false (Nat.not_lt.2 h)), fun h => external (decide_eq_true h)⟩
  · rw [switched.flags p .input (by decide) (by decide), Bool.or_eq_true]
    refine or_congr Iff.rfl ((raisedAtSwitch_input switched).trans ?_)
    simp only [badStatus_eq]
    rfl

end Sys2Proof.Machine
end

section
/-!
SUPPORT. The tally that a switch point publishes (chapter 8).
-/

namespace Sys2Proof.Machine

/-! ### Contribution, as the state in force gives it (R129, R130) -/

/-- The keyer contributes to program. -/
theorem keyerOnProgram_eq (s : State) (k : Keyer) : keyerOnProgram s k =
    (s.tc.onAir.get k || ((inFlightSelection s).keyers.get k && decide (0 < s.tc.pos))) := by
  unfold keyerOnProgram
  cases (inFlightSelection s).keyers.get k <;> simp

theorem onProgram_background (s : State) {i : InputId} (r : Role) (h : i = pgmInput r) : onProgram s i =
    (decide (s.tc.role = r) || ((inFlightSelection s).bkgd && decide (0 < s.tc.pos))) := by
  subst h
  cases r <;> cases role : s.tc.role <;> simp [onProgram, pgmInput, role]

theorem onPreview_background (s : State) {i : InputId} (r : Role) (h : i = pgmInput r) : onPreview s i =
    (decide (s.tc.role = r) != (previewSelection s).bkgd) := by
  subst h
  cases r <;> cases role : s.tc.role <;> cases bkgd : (previewSelection s).bkgd <;>
    simp [onPreview, backgroundAtEnd, pgmInput, pstInput, role, bkgd]

theorem isLinear_eq (s : State) (k : Keyer) : isLinear s k = decide ((s.mes.live.keyers.get k).type = .linear) := by
  unfold isLinear
  cases (s.mes.live.keyers.get k).type <;> rfl

/-! ### One entry (R131, R132) -/

/-- An entry depends on the picture and on the inputs' status. -/
theorem tallyEntry_congr {s t : State} (picture : t.picture = s.picture)
    (status : ∀ i, (t.input i).status = (s.input i).status) (src : Source) : tallyEntry t src = tallyEntry s src := by
  simp only [tallyEntry, programLayers, carriedBy, picture_source picture, picture_faulted picture, status,
    onProgram_of_picture picture, onPreview_of_picture picture]

theorem tallyEntry_bkgd (s : State) (src : Source) : (tallyEntry s src).layers.bkgd =
    ((decide ((s.input .bga).live = src) && onProgram s .bga)
      || (decide ((s.input .bgb).live = src) && onProgram s .bgb)) := by
  rw [Bool.eq_iff_iff]
  simp only [tallyEntry, programLayers, carriedBy_iff, Bool.and_eq_true, Bool.or_eq_true, decide_eq_true_eq,
    isBackgroundInput_iff]
  constructor
  · rintro ⟨i, live, program, rfl | rfl⟩
    exacts [.inl ⟨live, program⟩, .inr ⟨live, program⟩]
  · rintro (⟨live, program⟩ | ⟨live, program⟩)
    exacts [⟨_, live, program, .inl rfl⟩, ⟨_, live, program, .inr rfl⟩]

theorem tallyEntry_keyer (s : State) (src : Source) (k : Keyer) : (tallyEntry s src).layers.keyers.get k =
    ((decide ((s.input (.fill k)).live = src) && onProgram s (.fill k))
      || (decide ((s.input (.key k)).live = src) && onProgram s (.key k))) := by
  have layer : ∀ i, inputInLayer k i = true ↔ i = .fill k ∨ i = .key k := fun i => by
    cases i <;> simp [inputInLayer]
  rw [Bool.eq_iff_iff]
  simp only [tallyEntry, programLayers, PerKeyer.get_build, carriedBy_iff, Bool.and_eq_true, Bool.or_eq_true,
    decide_eq_true_eq, layer]
  constructor
  · rintro ⟨i, live, program, rfl | rfl⟩
    exacts [.inl ⟨live, program⟩, .inr ⟨live, program⟩]
  · rintro (⟨live, program⟩ | ⟨live, program⟩)
    exacts [⟨_, live, program, .inl rfl⟩, ⟨_, live, program, .inr rfl⟩]

theorem tallyEntry_fault (s : State) (src : Source) : (tallyEntry s src).fault = InputId.all.any fun i =>
    decide ((s.bi.inputs.get i).live = src) && (onProgram s i || onPreview s i) && (s.bi.inputs.get i).faulted
      && decide ((s.bi.inputs.get i).status ≠ .settling) := by
  simp only [tallyEntry, carriedBy, bne_eq_decide_ne, Bool.and_assoc, State.input] <;> rfl

/-! ### Publication (R134, R135) -/

theorem changedSources_isEmpty_iff (before after : Vector TallyEntry 128) :
    (changedSources before after).isEmpty = true ↔ after = before := by
  rw [List.isEmpty_iff, changedSources, List.filter_eq_nil_iff]
  constructor
  · intro same
    refine Vector.ext fun i hi => ?_
    have entry := same ⟨i, hi⟩ (List.mem_finRange _)
    rw [Bool.not_eq_true, bne_eq_false_iff_eq] at entry
    exact entry.symm
  · rintro rfl src -
    simp

theorem publishedTally_of_same {s : State} (same : tallyTable s = s.tu.table) : publishedTally s = s.tu := by
  unfold publishedTally
  dsimp only
  rw [if_pos ((changedSources_isEmpty_iff _ _).2 same), same]

theorem publishedTally_generation {s : State} (changed : tallyTable s ≠ s.tu.table) :
    (publishedTally s).generation = s.tu.generation + 1 := by
  unfold publishedTally
  dsimp only
  rw [if_neg (mt (changedSources_isEmpty_iff _ _).1 changed)]

theorem changedSources_eq (before after : Vector TallyEntry 128) : changedSources before after =
    (List.finRange 128).filter fun src => decide (after[src] ≠ before[src]) := by
  simp only [changedSources, allSources, bne_eq_decide_ne, ne_comm]

theorem noteChange_eq (c : ChangeList) (src : Source) : noteChange c src =
    let moved := c.sources.filter (fun x => decide (x ≠ src)) ++ [src]
    if 32 < moved.length then ⟨moved.drop 1, true⟩ else ⟨moved, c.overrun⟩ := by
  simp only [noteChange, bne_eq_decide_ne, List.drop_one]
  rfl

/-- Settles O40: the table is that of the frame take's state, and nothing it reads moves after it. -/
theorem switchPointPublishesLiveTally : Obligations.SwitchPointPublishesLiveTally := by
  intro xready s free
  refine ⟨_, exec_switchPoint xready free, ?_⟩
  have switched := switchPointWork_switched xready s
  generalize switchPointWork xready s = t at *
  intro moving ending linear programKeyer previewKeyer program preview carries added
  obtain ⟨-, -, tu⟩ := staged_queues xready s
  have table : t.tu.table = tallyTable (s.staged xready) := by rw [switched.tu, publishedTally_table]
  have status : ∀ i, (t.input i).status = ((s.staged xready).input i).status := fun i => by
    obtain ⟨src, same⟩ := switched.inputs i
    rw [State.input, same, State.input, staged_input]
  have entry : ∀ src : Source, t.tu.table[src] = tallyEntry t src := fun src => by
    rw [tallyEntry_congr switched.picture status]
    exact (congrArg (fun v : Vector TallyEntry 128 => v[src]) table).trans (tallyTable_get _ src)
  have moving_eq : inFlightSelection t = moving := rfl
  have ending_eq : previewSelection t = ending := previewSelection_eq t
  have keyerProgram : ∀ k, keyerOnProgram t k = programKeyer k := keyerOnProgram_eq t
  have keyerPreview : ∀ k, onAirAtEnd t k = previewKeyer k := fun k => by
    rw [onAirAtEnd, ending_eq] <;> rfl
  have program_eq : ∀ i, onProgram t i = program i := fun i => by
    cases i with
    | bga => exact onProgram_background t .bga rfl
    | bgb => exact onProgram_background t .bgb rfl
    | fill k => exact keyerProgram k
    | key k => exact congrArg₂ and (keyerProgram k) (isLinear_eq t k)
  have preview_eq : ∀ i, onPreview t i = preview i := fun i => by
    cases i with
    | bga => exact (onPreview_background t .bga rfl).trans (by rw [ending_eq])
    | bgb => exact (onPreview_background t .bgb rfl).trans (by rw [ending_eq])
    | fill k => exact keyerPreview k
    | key k => exact congrArg₂ and (keyerPreview k) (isLinear_eq t k)
  refine ⟨fun src => ?_, fun same => ⟨?_, fun p => ?_⟩, fun changed => ⟨?_, fun p => ?_, fun p => ?_⟩⟩
  · rw [entry src]
    refine ⟨?_, ?_, ?_, fun k => ?_, ?_⟩
    · simp only [← program_eq]
      rfl
    · simp only [← preview_eq]
      rfl
    · simp only [← program_eq]
      exact tallyEntry_bkgd t src
    · simp only [← program_eq]
      exact tallyEntry_keyer t src k
    · simp only [← program_eq, ← preview_eq]
      exact tallyEntry_fault t src
  · rw [switched.tu, ← tu]
    exact publishedTally_of_same ((table.symm.trans same).trans (congrArg Tu.table tu).symm)
  · have quiet : s.raisedAtSwitch xready .tally = false := by
      rw [State.raisedAtSwitch, ← table, (changedSources_isEmpty_iff _ _).2 same, Bool.not_true]
    rw [switched.flags p .tally (by decide) (by decide), quiet, Bool.or_false]
  · rw [switched.tu, publishedTally_generation (by rw [← table, tu]; exact changed), tu]
  · have raised : s.raisedAtSwitch xready .tally = true := by
      rw [State.raisedAtSwitch, ← table, Bool.not_eq_true', ← Bool.not_eq_true]
      exact mt (changedSources_isEmpty_iff _ _).1 changed
    rw [switched.flags p .tally (by decide) (by decide), raised, Bool.or_true]
  · have adds : noteChange = added := funext fun c => funext fun src => noteChange_eq c src
    rw [switched.tu, publishedTally_changes, publishedTally_table, tu, changedSources_eq, adds]

end Sys2Proof.Machine
end

section
/-!
SUPPORT. The frame take of a switch point (sections 3.1, 4.3 and 6.4): what the copy and the clamp leave before it,
and which stages act.
-/

namespace Sys2Proof.Machine

/-! ### The setups before the take (R38, R40, R103) -/

/-- The crop clamp of the coming switch point: none unless the raster changes. -/
def State.clampThere (s : State) : KeyerSetup → KeyerSetup :=
  match s.rtg.pendingSetup with
  | some ts => if ts.raster ≠ s.rtg.raster then clampCrop ts.raster else id
  | none => id

theorem clampThere_eq (s : State) :
    (fun k : KeyerSetup => if rasterChanges s.rtg then clampCrop s.rtg.rasterThere k else k) = s.clampThere := by
  funext k
  unfold rasterChanges Rtg.rasterThere State.clampThere
  cases s.rtg.pendingSetup with
  | none => rfl
  | some ts => by_cases same : ts.raster = s.rtg.raster <;> simp [same]

theorem clampThere_type (s : State) (k : KeyerSetup) : (s.clampThere k).type = k.type := by
  unfold State.clampThere
  cases s.rtg.pendingSetup with
  | none => rfl
  | some ts =>
    dsimp only
    split <;> rfl

/-- A scene cut with its crop edges clamped for the coming switch point. -/
def State.clampedCut (s : State) (c : SceneCut) : SceneCut := { c with keyers := c.keyers.map s.clampThere }

/-- The next setups with their crop edges clamped for the coming switch point. -/
def State.clampedNext (s : State) : Setup := { s.mes.next with keyers := s.mes.next.keyers.map s.clampThere }

/-- The wipe generator after the reload (R103). -/
def State.reloadedWipe (s : State) : Wg :=
  if s.wg.reload then ⟨if s.mes.next.wipe.reverse then .reversed else .normal, false⟩ else s.wg

theorem copied_eq (xready : Bool) (s : State) : s.copied xready = { s.framed xready with
    mes := { s.mes with next := s.clampedNext, live := s.clampedNext }
    wg := s.reloadedWipe
    tc := { s.tc with sceneCut := s.tc.sceneCut.map s.clampedCut } } := by
  have reloaded : reloadDirection (copyNextToLive (s.framed xready)) = { s.framed xready with
      mes := { s.mes with live := s.mes.next }, wg := s.reloadedWipe } := by
    unfold reloadDirection copyNextToLive State.reloadedWipe
    rw [← framed_mes xready s]
    simp only [framed_wg]
    split
    · rfl
    · rw [← framed_wg xready s]
  obtain ⟨raster, -⟩ := rtgSwitch_force s.rtg
  rw [State.copied, setupSwitch, reloaded, clampCropsWhen_eq]
  simp only [framed_rtg, raster, clampThere_eq, framed_tc]
  rfl

/-! ### The inputs that are in flight at the take (R19) -/

theorem judgeInput_request (r : Rtg) (lMin lMax : Nat) (i : InputRec) :
    (judgeInput r lMin lMax i).requested = i.requested ∧ (judgeInput r lMin lMax i).issued = i.issued
    ∧ (judgeInput r lMin lMax i).awaiting = i.awaiting := by
  unfold judgeInput
  dsimp only
  split
  · split <;> exact ⟨rfl, rfl, rfl⟩
  · exact ⟨rfl, rfl, rfl⟩

theorem settledInput_request (s : State) (i : InputRec) : (s.settledInput i).requested = i.requested
    ∧ (s.settledInput i).issued = i.issued
    ∧ (s.settledInput i).awaiting = (s.tc.resetPending && i.awaiting) := by
  have live : (s.wentLive i).requested = i.requested ∧ (s.wentLive i).issued = i.issued
      ∧ (s.wentLive i).awaiting = (s.tc.resetPending && i.awaiting) := by
    unfold State.wentLive
    split
    · next reset => exact ⟨rfl, rfl, by rw [reset]; rfl⟩
    · next reset =>
      unfold goLiveInput
      split_ifs with awaits
      · exact ⟨rfl, rfl, by simp [reset]⟩
      · exact ⟨rfl, rfl, by simp [reset]⟩
      · exact ⟨rfl, rfl, by simp [awaits]⟩
  unfold State.settledInput settleInput
  split_ifs <;> exact live

/-- At the take an input is in flight when its request is not live yet: a request of this switch point, or an issue
that an engine reset keeps from going live. -/
theorem recInFlight_switchedInput (xready : Bool) (s : State) (i : InputRec) :
    recInFlight (s.switchedInput xready i) =
      (decide (i.requested ≠ i.issued) || (s.tc.resetPending && i.awaiting)) := by
  obtain ⟨requested, issued, awaiting⟩ := judgeInput_request s.rtg s.bi.lMin s.bi.lMax (s.settledInput i)
  obtain ⟨requested', issued', awaiting'⟩ := settledInput_request s i
  rw [switchedInput_eq]
  cases xready
  · simp only [Bool.false_eq_true, if_false]
    rw [recInFlight, requested, issued, awaiting, requested', issued', awaiting', bne_eq_decide_ne]
  · simp only [if_true, issueInput_eq]
    rw [recInFlight, requested, issued, awaiting, requested', issued', awaiting']
    simp [Bool.or_comm]

/-- The inputs of a scene cut are those of its clamped form. -/
theorem sceneCutInputs_clamped (s : State) (c : SceneCut) : sceneCutInputs (s.clampedCut c) = sceneCutInputs c := by
  simp only [sceneCutInputs, State.clampedCut, PerKeyer.get_map, clampThere_type] <;> rfl

/-! ### Stages before the main action -/

/-- The state that stage 1 starts from: the quiet count has risen, and an engine reset has been applied. -/
def State.started (xready : Bool) (s : State) : State := applyEngineReset (quietStep (s.copied xready))

theorem started_keeps (xready : Bool) (s : State) : StageKeeps (s.copied xready) (s.started xready) :=
  (quietStep_stageKeeps _).trans (applyEngineReset_stageKeeps _)

theorem staged_eq (xready : Bool) (s : State) :
    s.staged xready = laterStages (keyCutStages (sceneCutStage (s.started xready))) := rfl

theorem started_input (xready : Bool) (s : State) (i : InputId) :
    (s.started xready).input i = s.switchedInput xready (s.bi.inputs.get i) := by
  obtain ⟨bi, -⟩ := copied_takeKeeps xready s
  rw [State.input, (started_keeps xready s).bi, bi, framed_input]

theorem started_sceneCut (xready : Bool) (s : State) :
    (s.started xready).tc.sceneCut = s.tc.sceneCut.map s.clampedCut := by
  rw [(started_keeps xready s).sceneCut, copied_eq]

theorem started_mes (xready : Bool) (s : State) :
    (s.started xready).mes = { s.mes with next := s.clampedNext, live := s.clampedNext } := by
  rw [(started_keeps xready s).mes, copied_eq]

/-- The input is in flight at the coming take. -/
def State.movesThere (s : State) (i : InputId) : Bool :=
  decide ((s.bi.inputs.get i).requested ≠ (s.bi.inputs.get i).issued)
    || (s.tc.resetPending && (s.bi.inputs.get i).awaiting)

/-- The scene cut waits at the coming take (R67). -/
def State.cutWaits (s : State) (c : SceneCut) : Bool :=
  (sceneCutInputs c).any s.movesThere && decide (c.deferrals < 4)

theorem anyInFlight_started (xready : Bool) (s : State) (is : List InputId) : anyInFlight (s.started xready) is =
    is.any s.movesThere := by
  simp only [anyInFlight, started_input, recInFlight_switchedInput] <;> rfl

/-- The live setups after the take: the copied ones, under the keyers of a scene cut that is applied. -/
theorem staged_live (xready : Bool) (s : State) : (s.staged xready).mes.live = { s.mes.next with
    keyers := match s.tc.sceneCut with
      | some c => if s.cutWaits c then s.mes.next.keyers.map s.clampThere else c.keyers.map s.clampThere
      | none => s.mes.next.keyers.map s.clampThere } := by
  have later := (keyCutStages_stageKeeps (sceneCutStage (s.started xready))).trans (laterStages_stageKeeps _)
  rw [staged_eq, later.mes, sceneCutStage, started_sceneCut]
  cases s.tc.sceneCut with
  | none =>
    dsimp only [Option.map]
    rw [started_mes]
    rfl
  | some c =>
    have waits : (anyInFlight (s.started xready) (sceneCutInputs (s.clampedCut c))
        && decide ((s.clampedCut c).deferrals < Config.maxDeferrals)) = s.cutWaits c := by
      rw [anyInFlight_started, sceneCutInputs_clamped]
      rfl
    dsimp only [Option.map]
    rw [waits]
    cases s.cutWaits c
    · simp only [Bool.false_eq_true, if_false, applySceneCut, started_mes]
      rfl
    · simp only [if_true, mapTc, started_mes]
      rfl

theorem cutWaits_eq (s : State) (c : SceneCut) : s.cutWaits c =
    (decide (c.deferrals < 4)
      && ((c.background && (s.movesThere .bga || s.movesThere .bgb))
        || Keyer.all.any fun k => s.movesThere (.fill k)
          || (decide ((c.keyers.get k).type = .linear) && s.movesThere (.key k)))) := by
  have background : (if c.background then [InputId.bga, .bgb] else []).any s.movesThere
      = (c.background && (s.movesThere .bga || s.movesThere .bgb)) := by
    cases c.background <;> simp
  have keyer : ∀ k, (keyerInputs k (c.keyers.get k).type).any s.movesThere
      = (s.movesThere (.fill k) || (decide ((c.keyers.get k).type = .linear) && s.movesThere (.key k))) := fun k => by
    cases (c.keyers.get k).type <;> simp [keyerInputs]
  unfold State.cutWaits sceneCutInputs
  rw [Bool.and_comm, List.any_append, List.any_flatMap]
  exact congrArg₂ and rfl (congrArg₂ or background (congrArg (List.any Keyer.all) (funext keyer)))

/-! ### A take with no transition running and no lever held -/

/-- No transition runs, nobody holds the lever, and the wipe direction stands. -/
structure Still (d : Direction) (s : State) : Prop where
  inFlight : s.tc.inFlight = none
  holder : s.lu.holder = none
  direction : s.wg.direction = d

theorem Still.quietStep {d : Direction} {s : State} (h : Still d s) : Still d (quietStep s) := by
  rcases quietStep_cases s with ⟨-, e⟩ | ⟨p, held, -⟩
  · rwa [e]
  · simp [h.holder] at held

theorem Still.applyEngineReset {d : Direction} {s : State} (h : Still d s) : Still d (applyEngineReset s) := by
  cases reset : s.tc.resetPending
  · simpa [Machine.applyEngineReset, reset] using h
  · rw [applyEngineReset_of_pending reset]
    exact ⟨rfl, h.holder, h.direction⟩

theorem Still.sceneCutStage {d : Direction} {s : State} (h : Still d s) : Still d (sceneCutStage s) := by
  rcases sceneCutStage_cases s with ⟨-, e⟩ | ⟨c, -, ⟨-, -, e⟩ | ⟨-, e⟩⟩ <;> rw [e]
  exacts [h, ⟨h.inFlight, h.holder, h.direction⟩, ⟨h.inFlight, h.holder, h.direction⟩]

theorem Still.keyCutStage {d : Direction} {s : State} (h : Still d s) (k : Keyer) : Still d (keyCutStage k s) := by
  unfold Machine.keyCutStage
  split
  · exact h
  · split_ifs
    exacts [h, ⟨h.inFlight, h.holder, h.direction⟩, ⟨h.inFlight, h.holder, h.direction⟩]

theorem Still.keyCutStages {d : Direction} {s : State} (h : Still d s) : Still d (keyCutStages s) := by
  unfold Machine.keyCutStages behindSceneCut
  split
  · exact h
  · exact (((h.keyCutStage .k1).keyCutStage .k2).keyCutStage .k3).keyCutStage .k4

/-- A stage that leaves the wipe direction: a completion it hands over has no type. -/
structure StillWork (d : Direction) (w : StageWork) : Prop where
  direction : w.state.wg.direction = d
  untyped : ∀ c, w.completing = some c → c.type = none
  still : w.advances = true → w.completing = none ∧ Still d w.state

theorem Still.work {d : Direction} {s : State} (h : Still d s) : StillWork d (noWork s) :=
  ⟨h.direction, nofun, fun _ => ⟨rfl, h⟩⟩

theorem completeRunning_untyped {s : State} (idle : s.tc.inFlight = none) : (completeRunning s).type = none := by
  simp [completeRunning, idle]

theorem Still.cutStage {d : Direction} {s : State} (h : Still d s) : StillWork d (cutStage s) := by
  unfold Machine.cutStage
  split
  · split
    · exact ⟨h.direction, nofun, fun _ => ⟨rfl, h.inFlight, h.holder, h.direction⟩⟩
    · rw [clearMain_releaseForMain]
      exact ⟨h.direction, fun c e => by cases e; rfl, nofun⟩
  · rw [clearMain_releaseForMain]
    exact ⟨h.direction, fun c e => by cases e; exact completeRunning_untyped h.inFlight, nofun⟩
  · exact h.work

theorem Still.autoStage {d : Direction} {s : State} (h : Still d s) : StillWork d (autoStage s) := by
  unfold Machine.autoStage
  split
  · rw [clearMain_releaseForMain]
    split_ifs
    · exact ⟨h.direction, nofun, fun _ => ⟨rfl, h.inFlight, h.holder, h.direction⟩⟩
    · exact ⟨h.direction, fun c e => by cases e; rfl, nofun⟩
    · exact ⟨h.direction, nofun, nofun⟩
  · exact h.work

theorem Still.takeoverStage {d : Direction} {s : State} (h : Still d s) : StillWork d (takeoverStage s) := by
  unfold Machine.takeoverStage
  split
  · rw [clearMain_releaseForMain]
    dsimp only
    split
    · exact ⟨h.direction, fun c e => by cases e; exact completeRunning_untyped h.inFlight, nofun⟩
    · rw [leaveManual_eq]
      exact ⟨h.direction, nofun, nofun⟩
  · exact h.work

theorem Still.mainStage {d : Direction} {s : State} (h : Still d s) : StillWork d (mainStage s) := by
  unfold Machine.mainStage
  split
  · exact h.work
  · split
    · exact h.work
    · exact h.cutStage
    · exact h.takeoverStage
    · exact h.autoStage

theorem Still.advanceStage {d : Direction} {s : State} (h : Still d s) : advanceStage s = noWork s := by
  unfold Machine.advanceStage autoAdvance leverAdvance manualStage
  rw [h.inFlight, h.holder]
  cases s.tc.mode <;> rfl

theorem StillWork.finish {d : Direction} {w : StageWork} (h : StillWork d w) : (finish w).wg.direction = d := by
  unfold Machine.finish
  split
  · next c completes =>
    rw [complete_eq, h.untyped c completes]
    exact h.direction
  · exact h.direction

theorem Still.laterStages {d : Direction} {s : State} (h : Still d s) : (laterStages s).wg.direction = d := by
  have main := h.mainStage
  unfold Machine.laterStages
  dsimp only
  split
  · next advances =>
    obtain ⟨-, still⟩ := main.still advances
    rw [still.advanceStage]
    exact still.direction
  · exact main.finish

theorem staged_direction {xready : Bool} {s : State} (idle : s.tc.inFlight = none) (free : s.lu.holder = none) :
    (s.staged xready).wg.direction = s.reloadedWipe.direction := by
  have copied : Still s.reloadedWipe.direction (s.copied xready) := by
    rw [copied_eq]
    exact ⟨idle, (congrArg Lu.holder (framed_lu xready s)).trans free, rfl⟩
  exact copied.quietStep.applyEngineReset.sceneCutStage.keyCutStages.laterStages

/-- Settles O41: the copy with its clamp, then the keyers of a scene cut that the take applies. -/
theorem switchPointCopiesNextToLive : Obligations.SwitchPointCopiesNextToLive := by
  intro xready s free
  refine ⟨_, exec_switchPoint xready free, ?_⟩
  have switched := switchPointWork_switched xready s
  intro clamp inFlight waits
  have waits_eq : ∀ c, s.cutWaits c = waits c := cutWaits_eq s
  refine ⟨?_, fun idle noHolder => ?_, fun notDue => ?_⟩
  · rw [picture_live switched.picture, staged_live]
    simp only [waits_eq]
    rfl
  · rw [picture_direction switched.picture, staged_direction idle noHolder]
    unfold State.reloadedWipe
    split <;> rfl
  · have shown := published_keeps xready s
    obtain ⟨rtg, cq, -⟩ := staged_queues xready s
    have quiet : ∀ e ∈ (s.published xready).cq.entries, isDue (s.published xready) e = false := fun e he => by
      rw [shown.cq, cq] at he
      have : e.target ≠ (s.published xready).rtg.counter := by
        rw [shown.rtg, rtg]
        exact notDue e he
      simpa [isDue] using this
    rw [switchPointWork_eq, releaseDue_of_none quiet, shown.wg, (staged_takeKeeps xready s).reload, copied_eq]
    simp only [State.reloadedWipe]
    split
    · rfl
    · next unset => exact Bool.eq_false_iff.2 unset

end Sys2Proof.Machine
end

section
/-!
SUPPORT. A running transition at a switch point with nothing pending (section 4.3).
-/

namespace Sys2Proof.Machine

/-! ### Nothing pending -/

/-- What the key cuts leave alone: all but the pending cuts and the flags of keyers that are not in flight (R68). -/
structure KeyCutKeeps (s t : State) : Prop where
  mode : t.tc.mode = s.tc.mode := by rfl
  pos : t.tc.pos = s.tc.pos := by rfl
  role : t.tc.role = s.tc.role := by rfl
  inFlight : t.tc.inFlight = s.tc.inFlight := by rfl
  main : t.tc.main = s.tc.main := by rfl
  sceneCut : t.tc.sceneCut = s.tc.sceneCut := by rfl
  onAir : ∀ k, (inFlightSelection s).keyers.get k = true → t.tc.onAir.get k = s.tc.onAir.get k := by
    exact fun _ _ => rfl
  lu : t.lu = s.lu := by rfl

theorem KeyCutKeeps.refl (s : State) : KeyCutKeeps s s := {}

theorem KeyCutKeeps.trans {s t u : State} (h : KeyCutKeeps s t) (k : KeyCutKeeps t u) : KeyCutKeeps s u where
  mode := k.mode.trans h.mode
  pos := k.pos.trans h.pos
  role := k.role.trans h.role
  inFlight := k.inFlight.trans h.inFlight
  main := k.main.trans h.main
  sceneCut := k.sceneCut.trans h.sceneCut
  onAir key moving :=
    (k.onAir key (by rw [inFlightSelection, h.inFlight]; exact moving)).trans (h.onAir key moving)
  lu := k.lu.trans h.lu

theorem keyCutStage_keeps (k : Keyer) (s : State) : KeyCutKeeps s (keyCutStage k s) := by
  unfold keyCutStage
  split
  · exact .refl s
  · split_ifs with moving waits
    · exact .refl s
    · exact {}
    · refine { onAir := fun j flies => ?_ }
      have other : j ≠ k := fun e => moving (e ▸ flies)
      simp [applyKeyCut, mapTc, other]

theorem keyCutStages_keeps (s : State) : KeyCutKeeps s (keyCutStages s) := by
  unfold keyCutStages behindSceneCut
  split
  · exact .refl s
  · exact (((keyCutStage_keeps .k1 s).trans (keyCutStage_keeps .k2 _)).trans (keyCutStage_keeps .k3 _)).trans
      (keyCutStage_keeps .k4 _)

/-- The quiet count moves no part of the controller but the count of a lever start (R90). -/
theorem quietStep_controller (s : State) : ∃ n, (quietStep s).tc = { s.tc with manualDeferrals := n } := by
  rcases quietStep_cases s with ⟨-, e⟩ | ⟨h, -, ⟨-, e⟩ | ⟨-, e⟩⟩ <;> rw [e] <;> exact ⟨_, rfl⟩

theorem copied_ports_quietLimit (xready : Bool) (s : State) (p : Port) :
    ((s.copied xready).ports.get p).quietLimit = (s.ports.get p).quietLimit := by
  obtain ⟨-, -, -, -, -, -, -, ports⟩ := copied_takeKeeps xready s
  rw [ports, framed_ports]
  unfold raisedWhen
  split_ifs <;> rfl

/-- With nothing pending the take is stage 4, on a state with the transition as it runs. -/
theorem staged_of_nothingPending (xready : Bool) {s : State} (noReset : s.tc.resetPending = false)
    (noMain : s.tc.main = .none) (noCut : s.tc.sceneCut = none) :
    ∃ u, s.staged xready = finish (advanceStage u) ∧ KeyCutKeeps (quietStep (s.copied xready)) u
      ∧ u.tc.mode = s.tc.mode ∧ u.tc.pos = s.tc.pos ∧ u.tc.role = s.tc.role ∧ u.tc.inFlight = s.tc.inFlight
      ∧ ∀ k, (inFlightSelection s).keyers.get k = true → u.tc.onAir.get k = s.tc.onAir.get k := by
  obtain ⟨n, counted⟩ := quietStep_controller (s.copied xready)
  have tc : (quietStep (s.copied xready)).tc = { s.tc with sceneCut := none, manualDeferrals := n } := by
    rw [counted, copied_eq, noCut]
    rfl
  have started : s.started xready = quietStep (s.copied xready) := by
    rw [State.started, applyEngineReset, tc]
    exact if_neg (by simp [noReset])
  have uncut : sceneCutStage (s.started xready) = quietStep (s.copied xready) := by
    rw [sceneCutStage, started_sceneCut, noCut, started]
    rfl
  have keeps := keyCutStages_keeps (quietStep (s.copied xready))
  have idle : mainStage (keyCutStages (quietStep (s.copied xready)))
      = noWork (keyCutStages (quietStep (s.copied xready))) := by
    have main : (keyCutStages (quietStep (s.copied xready))).tc.main = .none := by rw [keeps.main, tc]; exact noMain
    unfold mainStage
    rw [main]
    split <;> rfl
  refine ⟨_, ?_, keeps, by rw [keeps.mode, tc], by rw [keeps.pos, tc], by rw [keeps.role, tc],
    by rw [keeps.inFlight, tc], fun k moving => ?_⟩
  · rw [staged_eq, uncut, laterStages, idle]
    rfl
  · rw [keeps.onAir k (by rw [inFlightSelection, tc]; exact moving), tc]

/-- A flag that the take raises stays up. -/
theorem published_stays {xready : Bool} {s : State} {p : Port} {n : Notice}
    (up : flagSet ((s.staged xready).ports.get p).flags n = true) :
    flagSet ((switchPointWork xready s).ports.get p).flags n = true := by
  rw [switchPointWork_eq]
  refine (releaseDue_raises _ p).stays n ?_
  rw [published_eq]
  simp [State.onPorts, flagSet_raisedWhen, up]

/-! ### Stage 4 (R73, R74) -/

theorem finish_autoAdvance {s : State} {f : InFlight} (flies : s.tc.inFlight = some f) :
    finish (autoAdvance s) = if f.k + 1 < f.r then
        s.withTc { s.tc with pos := autoPosition f.p0 f.r (f.k + 1), inFlight := some { f with k := f.k + 1 } }
      else s.completed f.selection (some f.type) false := by
  rw [autoAdvance, flies]
  dsimp only
  split
  · rfl
  · exact complete_eq _ _

theorem finish_leverAdvance {s : State} {f : InFlight} {h : Port} (flies : s.tc.inFlight = some f)
    (held : s.lu.holder = some h) :
    finish (leverAdvance s) = if (s.lu.levers.get h).pos = 0 then releaseHold (toIdle s)
      else if 4096 ≤ (s.lu.levers.get h).pos then s.completed f.selection (some f.type) true
      else s.withTc { s.tc with pos := (s.lu.levers.get h).pos } := by
  have lever : s.lever h = s.lu.levers.get h := rfl
  rw [leverAdvance, held, completeRunning_of_some flies]
  dsimp only
  rw [lever]
  split
  · rfl
  · split
    · exact complete_eq _ _
    · rfl

theorem advanceStage_auto {s : State} (auto : s.tc.mode = .auto) : advanceStage s = autoAdvance s := by
  simp only [advanceStage, auto]

theorem advanceStage_manual {s : State} (manual : s.tc.mode = .manual) : advanceStage s = leverAdvance s := by
  simp only [advanceStage, manual]

theorem completed_role (s : State) (sel : LayerSet) (type : Option TransType) (byLever : Bool) :
    (s.completed sel type byLever).tc.role = if sel.bkgd then s.tc.role.swap else s.tc.role := rfl

theorem completed_onAir (s : State) (sel : LayerSet) (type : Option TransType) (byLever : Bool) (k : Keyer) :
    (s.completed sel type byLever).tc.onAir.get k = xor (sel.keyers.get k) (s.tc.onAir.get k) :=
  PerKeyer.get_build _ k

theorem completed_done (s : State) (sel : LayerSet) (type : Option TransType) (byLever : Bool) (p : Port) :
    flagSet ((s.completed sel type byLever).ports.get p).flags .done = true := by
  simp [State.completed, flagSet_raisedWhen]

theorem completed_home {s : State} {h : Port} (held : s.lu.holder = some h) (sel : LayerSet)
    (type : Option TransType) :
    ((s.completed sel type true).lu.levers.get h).home = (s.lu.levers.get h).home.flip := by
  have home : ∀ lost, ((s.lu.levers.get h).unlessWaiting lost).home = (s.lu.levers.get h).home := fun lost => by
    unfold Lever.unlessWaiting
    split <;> rfl
  simp only [State.completed, held, PerPort.get_build, Lever.atCompletion, Lever.at, Bool.true_and, decide_true,
    if_true,
    home]
  cases (s.lu.levers.get h).home <;> rfl

/-- Below the quiet limit the quiet count of a holder rises (R90). -/
theorem quietStep_copied_lu {xready : Bool} {s : State} {h : Port} (held : s.lu.holder = some h)
    (below : s.lu.quiet + 1 < (s.ports.get h).quietLimit) :
    (quietStep (s.copied xready)).lu = { s.lu with quiet := s.lu.quiet + 1 } := by
  have lu : (s.copied xready).lu = s.lu := by rw [copied_eq]; exact framed_lu xready s
  have limit := copied_ports_quietLimit xready s h
  rcases quietStep_cases (s.copied xready) with ⟨free, -⟩ | ⟨g, held', ⟨-, e⟩ | ⟨reached, -⟩⟩
  · simp [lu, held] at free
  · rw [e, lu]
  · rw [lu, held] at held'
    cases held'
    rw [State.port, limit, lu] at reached
    omega

/-- Settles O42: stage 4 on the transition as it runs. -/
theorem switchPointAdvancesTransition : Obligations.SwitchPointAdvancesTransition := by
  intro xready s f free noReset noMain noCut flies swapped
  refine ⟨_, exec_switchPoint xready free, ?_⟩
  have switched := switchPointWork_switched xready s
  have stays := fun p n => published_stays (xready := xready) (s := s) (p := p) (n := n)
  generalize switchPointWork xready s = t at *
  obtain ⟨u, staged, keeps, mode, pos, role, inFlight, onAir⟩ := staged_of_nothingPending xready noReset noMain noCut
  have flies' : u.tc.inFlight = some f := inFlight.trans flies
  have moving : inFlightSelection s = f.selection := by simp [inFlightSelection, flies]
  have picture := switched.picture
  have lu := switched.lu
  refine ⟨fun auto more => ?_, fun auto last => ?_, fun h manual held below => ?_⟩
  · rw [advanceStage_auto (mode.trans auto), finish_autoAdvance flies', if_pos more] at staged
    rw [staged] at picture
    exact ⟨(picture_mode picture).trans (mode.trans auto), picture_inFlight picture, picture_pos picture,
      (picture_role picture).trans role⟩
  · rw [advanceStage_auto (mode.trans auto), finish_autoAdvance flies', if_neg (by omega)] at staged
    rw [staged] at picture stays
    refine ⟨picture_mode picture, picture_inFlight picture, picture_pos picture, (picture_role picture).trans ?_,
      fun k selected => ?_, fun p => stays p .done ?_⟩
    · rw [completed_role, role]
    · rw [picture_onAir picture, completed_onAir, selected, onAir k (moving ▸ selected), Bool.true_xor]
    · exact completed_done _ _ _ _ p
  · have quiet : (quietStep (s.copied xready)).lu = { s.lu with quiet := s.lu.quiet + 1 } :=
      quietStep_copied_lu held below
    have held' : u.lu.holder = some h := by rw [keeps.lu, quiet]; exact held
    have quiets : u.lu.quiet = s.lu.quiet + 1 := by rw [keeps.lu, quiet]
    have lever : u.lu.levers.get h = s.lu.levers.get h := by rw [keeps.lu, quiet]
    rw [advanceStage_manual (mode.trans manual), finish_leverAdvance flies' held', lever] at staged
    refine ⟨fun home => ?_, fun away below => ?_, fun full => ?_⟩
    · rw [if_pos home, toIdle, leaveManual_eq] at staged
      rw [staged] at picture lu
      exact ⟨picture_mode picture, picture_inFlight picture, picture_pos picture, (picture_role picture).trans role,
        congrArg Lu.holder lu⟩
    · rw [if_neg (by omega), if_neg (by omega)] at staged
      rw [staged] at picture lu
      exact ⟨(picture_mode picture).trans (mode.trans manual), (picture_inFlight picture).trans flies',
        picture_pos picture, (congrArg Lu.holder lu).trans held', (congrArg Lu.quiet lu).trans quiets⟩
    · rw [if_neg (by omega), if_pos (by omega)] at staged
      rw [staged] at picture lu
      refine ⟨picture_mode picture, picture_inFlight picture, picture_pos picture, (picture_role picture).trans ?_,
        congrArg Lu.holder lu, ?_⟩
      · rw [completed_role, role]
      · rw [lu, completed_home held', lever]
        cases (s.lu.levers.get h).home <;> rfl

end Sys2Proof.Machine
end

section
/-!
SUPPORT. A switch point as the rows of its parts, run one after another (sections 2.4, 4.3 and 9.3).
-/

namespace Sys2Proof.Machine

theorem runRows_cons {c : Instr} {rest : List Instr} {s t : State} {u : Option State} (row : exec c s = .next t)
    (later : runRows rest t = u) : runRows (c :: rest) s = u := by
  simp only [runRows, row]
  exact later

/-! ### The release of the due cues, one by one (R145) -/

theorem setEntries_eq (es : List CueEntry) (s : State) :
    setEntries es s = s.withPorts s.ports s.lastGranted { s.cq with entries := es } := rfl

theorem releaseAnswer_setEntries (es : List CueEntry) (s : State) (e : CueEntry) :
    releaseAnswer e (setEntries es s) = (releaseAnswer e s).onState (setEntries es) := by
  unfold releaseAnswer
  cases parseCue e.code e.args with
  | none => rfl
  | some c =>
    have same := dealCueCommand_same c e.owner s
    dsimp only
    rw [setEntries_eq, dealCueCommand_withPorts]
    refine congrArg (Answer.mk _ _) ?_
    rw [setEntries_eq, same.ports, same.lastGranted, same.cq]

/-- What is dealt with does not depend on the entries that stand in the queue. -/
theorem releaseEntry_setEntries (es : List CueEntry) (s : State) (e : CueEntry) :
    releaseEntry (setEntries es s) e = setEntries es (releaseEntry s e) := by
  unfold releaseEntry
  rw [releaseAnswer_setEntries]
  dsimp only [Answer.onState]
  split <;> rfl

theorem filter_eraseP {α : Type} (p : α → Bool) (l : List α) :
    (l.eraseP p).filter p = (l.filter p).tail ∧ ((l.eraseP p).filter fun a => !p a) = l.filter fun a => !p a := by
  induction l with
  | nil => exact ⟨rfl, rfl⟩
  | cons a l ih =>
    obtain ⟨due, others⟩ := ih
    cases h : p a <;> simp [h, due, others]

theorem exec_cueRelease {s : State} (free : s.resetLow = false) : exec .cueRelease s = .next (releaseFirst s) :=
  timedRow_next free rfl

/-- Releasing the first due entry again and again releases them all, in queue order. -/
theorem runRows_cueRelease {due : List CueEntry} {s : State} (free : s.resetLow = false)
    (queue : s.cq.entries.filter (isDue s) = due) : runRows (due.map fun _ => .cueRelease) s = some (releaseDue s) := by
  induction due generalizing s with
  | nil =>
    have quiet : ∀ e ∈ s.cq.entries, isDue s e = false := by simpa using queue
    rw [releaseDue_of_none quiet]
    rfl
  | cons e due ih =>
    obtain ⟨rest, kept⟩ := filter_eraseP (isDue s) s.cq.entries
    have first : s.cq.entries.find? (isDue s) = some e := by rw [← List.head?_filter, queue]; rfl
    have release : releaseFirst s = releaseEntry (setEntries (s.cq.entries.eraseP (isDue s)) s) e := by
      rw [releaseFirst, first]
    have keeps := releaseEntry_releaseKeeps (setEntries (s.cq.entries.eraseP (isDue s)) s) e
    rw [← release] at keeps
    have test : isDue (releaseFirst s) = isDue s := by
      funext x
      rw [isDue, keeps.same.rtg]
      rfl
    have entries : (releaseFirst s).cq.entries = s.cq.entries.eraseP (isDue s) := keeps.entries
    have later := ih (s := releaseFirst s) (keeps.same.resetLow.trans free) (by rw [test, entries, rest, queue]; rfl)
    refine runRows_cons (exec_cueRelease free) (later.trans (congrArg some ?_))
    rw [releaseDue, test, entries, rest, kept, queue, releaseDue, queue, release, ← releaseEntry_setEntries]
    rfl

/-! ### The stages before the main action -/

/-- The key cuts one by one, each behind a scene cut, are the stage of all four (R68). -/
theorem runRows_keyCuts {s : State} (free : s.resetLow = false) :
    runRows [.keyCutApply .k1, .keyCutApply .k2, .keyCutApply .k3, .keyCutApply .k4] s = some (keyCutStages s) := by
  have row : ∀ k {t : State}, t.resetLow = false →
      exec (.keyCutApply k) t = .next (behindSceneCut t (keyCutStage k)) := fun _ _ free => timedRow_next free rfl
  have reset : ∀ k (t : State), (keyCutStage k t).resetLow = t.resetLow := fun k t =>
    (keyCutStage_stageKeeps k t).resetLow
  cases cut : s.tc.sceneCut with
  | some c =>
    have stands : ∀ f, behindSceneCut s f = s := fun f => by simp [behindSceneCut, cut]
    have each : ∀ k, exec (.keyCutApply k) s = .next s := fun k => (row k free).trans (congrArg _ (stands _))
    rw [keyCutStages, stands]
    exact runRows_cons (each _) (runRows_cons (each _) (runRows_cons (each _) (runRows_cons (each _) rfl)))
  | none =>
    have each : ∀ k {t : State}, t.resetLow = false → t.tc.sceneCut = none →
        exec (.keyCutApply k) t = .next (keyCutStage k t) := fun k t free noCut =>
      (row k free).trans (congrArg _ (behindSceneCut_of_none noCut _))
    have uncut : ∀ k {t : State}, t.tc.sceneCut = none → (keyCutStage k t).tc.sceneCut = none := fun k t noCut =>
      (keyCutStage_stageKeeps k t).sceneCut.trans noCut
    have low : ∀ k {t : State}, t.resetLow = false → (keyCutStage k t).resetLow = false := fun k t free =>
      (reset k t).trans free
    rw [keyCutStages, behindSceneCut_of_none cut]
    exact runRows_cons (each _ free cut) (runRows_cons (each _ (low _ free) (uncut _ cut))
      (runRows_cons (each _ (low _ (low _ free)) (uncut _ (uncut _ cut)))
        (runRows_cons (each _ (low _ (low _ (low _ free))) (uncut _ (uncut _ (uncut _ cut)))) rfl)))

theorem runRows_beforeMain {s : State} (free : s.resetLow = false) :
    runRows [.quietLimitExpiry, .engineResetApply, .sceneCutApply, .keyCutApply .k1, .keyCutApply .k2,
      .keyCutApply .k3, .keyCutApply .k4] s
        = some (keyCutStages (sceneCutStage (applyEngineReset (quietStep s)))) := by
  have quiet : (quietStep s).resetLow = false := (quietStep_stageKeeps s).resetLow.trans free
  have reset : (applyEngineReset (quietStep s)).resetLow = false := (applyEngineReset_stageKeeps _).resetLow.trans quiet
  exact runRows_cons (timedRow_next free rfl) (runRows_cons (timedRow_next quiet rfl)
    (runRows_cons (timedRow_next reset rfl) (runRows_keyCuts ((sceneCutStage_resetLow _).trans reset))))

/-! ### The main action (R69 to R72) -/

/-- A stage of the main action performs nothing, and leaves the action and the mode, or performs the action. -/
def MainWork (s : State) (w : StageWork) : Prop :=
  (w.advances = true ∧ w.completing = none ∧ w.state.tc.main = s.tc.main ∧ w.state.tc.mode = s.tc.mode)
  ∨ (w.advances = false ∧ s.tc.main ≠ .none ∧ w.state.tc.main = .none)

theorem noWork_mainWork (s : State) : MainWork s (noWork s) := .inl ⟨rfl, rfl, rfl, rfl⟩

theorem cutStage_mainWork (s : State) : MainWork s (cutStage s) := by
  unfold cutStage
  split
  · next cut _ =>
    split
    · exact .inl ⟨rfl, rfl, rfl, rfl⟩
    · rw [clearMain_releaseForMain]
      exact .inr ⟨rfl, by simp [cut], rfl⟩
  · next cut _ =>
    rw [clearMain_releaseForMain]
    exact .inr ⟨rfl, by simp [cut], rfl⟩
  · exact noWork_mainWork s

theorem autoStage_mainWork (s : State) : MainWork s (autoStage s) := by
  unfold autoStage
  split
  · next auto _ =>
    rw [clearMain_releaseForMain]
    split_ifs
    · exact .inl ⟨rfl, rfl, rfl, rfl⟩
    · exact .inr ⟨rfl, by simp [auto], rfl⟩
    · exact .inr ⟨rfl, by simp [auto], rfl⟩
  · exact noWork_mainWork s

theorem takeoverStage_mainWork (s : State) : MainWork s (takeoverStage s) := by
  unfold takeoverStage
  split
  · next auto _ =>
    rw [clearMain_releaseForMain]
    dsimp only
    split
    · exact .inr ⟨rfl, by simp [auto], rfl⟩
    · rw [leaveManual_eq]
      exact .inr ⟨rfl, by simp [auto], rfl⟩
  · exact noWork_mainWork s

theorem mainStage_mainWork (s : State) : MainWork s (mainStage s) := by
  unfold mainStage
  split
  · exact noWork_mainWork s
  · split
    · exact noWork_mainWork s
    · exact cutStage_mainWork s
    · exact takeoverStage_mainWork s
    · exact autoStage_mainWork s

theorem cutStage_of_other {s : State} (other : s.tc.main ≠ .cut) : cutStage s = noWork s := by
  unfold cutStage
  cases main : s.tc.main <;> simp [main] at other ⊢

theorem autoStage_of_other {s : State} (other : s.tc.main ≠ .auto ∨ s.tc.mode ≠ .idle) : autoStage s = noWork s := by
  unfold autoStage
  cases main : s.tc.main <;> cases mode : s.tc.mode <;> simp [main, mode] at other ⊢

theorem takeoverStage_of_other {s : State} (other : s.tc.main ≠ .auto ∨ s.tc.mode ≠ .manual) :
    takeoverStage s = noWork s := by
  unfold takeoverStage
  cases main : s.tc.main <;> cases mode : s.tc.mode <;> simp [main, mode] at other ⊢

theorem finish_main (w : StageWork) : (finish w).tc.main = w.state.tc.main := by
  unfold finish
  split
  · rw [complete_eq]
    rfl
  · rfl

/-- Once the action is performed or deferred, no other stage of it acts. -/
theorem MainWork.finish {s : State} {w : StageWork} (h : MainWork s w) :
    (Machine.finish w).tc.main = .none
      ∨ (Machine.finish w).tc.main = s.tc.main ∧ (Machine.finish w).tc.mode = s.tc.mode := by
  rcases h with ⟨-, completes, main, mode⟩ | ⟨-, -, main⟩
  · refine .inr ⟨(finish_main w).trans main, ?_⟩
    rw [Machine.finish, completes]
    exact mode
  · exact .inl ((finish_main w).trans main)

theorem mainStage_of_pending {s : State} (noCut : s.tc.sceneCut = none) : mainStage s =
    match s.tc.main, s.tc.mode with
    | .none, _ => noWork s
    | .cut, _ => cutStage s
    | .auto, .manual => takeoverStage s
    | .auto, _ => autoStage s := by
  rw [mainStage, if_neg (by simp [noCut])] <;> rfl

/-- The three rows of the main action, one after another, are its one stage. -/
theorem runRows_mainAction {s : State} (free : s.resetLow = false) :
    runRows [.cutPerform, .autoStart, .takeover] s = some (finish (mainStage s)) := by
  have cutRow : ∀ {t : State}, t.resetLow = false →
      exec .cutPerform t = .next (behindSceneCut t fun t => finish (cutStage t)) := fun free => timedRow_next free rfl
  have autoRow : ∀ {t : State}, t.resetLow = false →
      exec .autoStart t = .next (behindSceneCut t fun t => finish (autoStage t)) := fun free => timedRow_next free rfl
  have takeoverRow : ∀ {t : State}, t.resetLow = false →
      exec .takeover t = .next (behindSceneCut t fun t => finish (takeoverStage t)) := fun free =>
    timedRow_next free rfl
  cases cut : s.tc.sceneCut with
  | some c =>
    have stands : ∀ f, behindSceneCut s f = s := fun f => by simp [behindSceneCut, cut]
    have waits : mainStage s = noWork s := by simp [mainStage, cut]
    rw [waits]
    exact runRows_cons ((cutRow free).trans (congrArg _ (stands _)))
      (runRows_cons ((autoRow free).trans (congrArg _ (stands _)))
        (runRows_cons ((takeoverRow free).trans (congrArg _ (stands _))) rfl))
  | none =>
    have goes : ∀ {t : State} (f : State → State), StageKeeps s t → behindSceneCut t f = f t := fun f kept =>
      behindSceneCut_of_none (kept.sceneCut.trans cut) f
    have low : ∀ {t : State}, StageKeeps s t → t.resetLow = false := fun kept => kept.resetLow.trans free
    have cutKeeps := finish_stageKeeps (cutStage_stageKeeps s)
    have autoKeeps := finish_stageKeeps (autoStage_stageKeeps s)
    have self := StageKeeps.refl s
    rw [mainStage_of_pending cut]
    cases main : s.tc.main with
    | none =>
      refine runRows_cons (t := s) ((cutRow free).trans ?_) (runRows_cons (t := s) ((autoRow free).trans ?_)
        (runRows_cons (t := s) ((takeoverRow free).trans ?_) rfl))
      · rw [goes _ self, cutStage_of_other (by simp [main])]; rfl
      · rw [goes _ self, autoStage_of_other (by simp [main])]; rfl
      · rw [goes _ self, takeoverStage_of_other (by simp [main])]; rfl
    | cut =>
      have spent : (finish (cutStage s)).tc.main ≠ .auto := by
        rcases (cutStage_mainWork s).finish with done | ⟨same, -⟩
        · simp [done]
        · simp [same, main]
      refine runRows_cons (t := finish (cutStage s)) ((cutRow free).trans ?_)
        (runRows_cons (t := finish (cutStage s)) ((autoRow (low cutKeeps)).trans ?_)
          (runRows_cons (t := finish (cutStage s)) ((takeoverRow (low cutKeeps)).trans ?_) rfl))
      · rw [goes _ self]
      · rw [goes _ cutKeeps, autoStage_of_other (.inl spent)]; rfl
      · rw [goes _ cutKeeps, takeoverStage_of_other (.inl spent)]; rfl
    | auto =>
      have uncut : exec .cutPerform s = .next s := (cutRow free).trans (by
        rw [goes _ self, cutStage_of_other (by simp [main])]; rfl)
      by_cases manual : s.tc.mode = .manual
      · refine runRows_cons uncut (runRows_cons (t := s) ((autoRow free).trans ?_)
          (runRows_cons (t := finish (takeoverStage s)) ((takeoverRow free).trans ?_) ?_))
        · rw [goes _ self, autoStage_of_other (.inr (by simp [manual]))]; rfl
        · rw [goes _ self]
        · rw [manual]; rfl
      · have spent : (finish (autoStage s)).tc.main ≠ .auto ∨ (finish (autoStage s)).tc.mode ≠ .manual := by
          rcases (autoStage_mainWork s).finish with done | ⟨-, same⟩
          · exact .inl (by simp [done])
          · exact .inr (by rw [same]; exact manual)
        refine runRows_cons uncut (runRows_cons (t := finish (autoStage s)) ((autoRow free).trans ?_)
          (runRows_cons (t := finish (autoStage s)) ((takeoverRow (low autoKeeps)).trans ?_) ?_))
        · rw [goes _ self]
        · rw [goes _ autoKeeps, takeoverStage_of_other spent]; rfl
        · cases mode : s.tc.mode
          · rfl
          · rfl
          · exact absurd mode manual

/-! ### The advance, unless an action was performed (R66) -/

theorem laterStages_performed {s : State} (pending : s.tc.main ≠ .none)
    (done : (finish (mainStage s)).tc.main = .none) :
    laterStages s = finish (mainStage s) := by
  rcases mainStage_mainWork s with ⟨-, -, same, -⟩ | ⟨performed, -⟩
  · rw [finish_main, same] at done
    exact absurd done pending
  · rw [laterStages]
    exact if_neg (by simp [performed])

theorem laterStages_waiting {s : State} (waits : s.tc.main = .none ∨ (finish (mainStage s)).tc.main ≠ .none) :
    laterStages s = finish (advanceStage (finish (mainStage s))) := by
  rcases mainStage_mainWork s with ⟨advances, completes, -⟩ | ⟨-, pending, done⟩
  · have stands : finish (mainStage s) = (mainStage s).state := by rw [finish, completes]
    rw [stands, laterStages]
    exact if_pos advances
  · rw [finish_main] at waits
    exact (waits.elim pending fun undone => undone done).elim

/-- The end of a transition in stage 4 is the row of its completion. -/
theorem exec_completion {s : State} (free : s.resetLow = false) {c : Completing}
    (due : dueCompletion s = some c) : exec .completion s = .next (complete c s) := by
  refine timedRow_next free ?_
  simp only [finish, due]

theorem released_home {s : State} (manual : s.tc.mode = .manual) : releaseHold (toIdle s) = { s with
    tc := { s.tc with mode := .idle, pos := 0, inFlight := none, manualDeferrals := 0 }
    lu := ⟨none, 0, noPickups s.lu.levers⟩
    ports := .build fun q => raisedWhen (losesPickup s q) .leverLost (s.ports.get q) } := by
  have levers : PerPort.build (fun q => (s.lu.levers.get q).unlessWaiting (losesPickup s q)) = noPickups s.lu.levers :=
    PerPort.ext_get fun q => by
      rw [PerPort.get_build, noPickups, PerPort.get_map, losesPickup, manual]
      exact unlessWaiting_of_waiting _
  rw [toIdle, leaveManual_eq, levers]
  rfl

/-- Settles O39: each part of the switch point is the row or the rows of its own. -/
theorem switchPointClosesClipsAndReleasesCues : Obligations.SwitchPointClosesClipsAndReleasesCues := by
  intro xready s free clamp due
  let c := keyCutStages (sceneCutStage (s.started xready))
  let d := finish (mainStage c)
  have closed : (timingSwitch (closeClipFrame s)).resetLow = false := by
    simpa [timingSwitch, closeClipFrame] using free
  have settled : (judgeAll s.rtg (settleAll (settleDirective s.rtg)
      (goLiveAll (timingSwitch (closeClipFrame s))))).resetLow = false := by
    simpa [judgeAll, goLiveAll] using closed
  have copiedFree : (s.copied xready).resetLow = false := by
    obtain ⟨-, -, -, -, resetLow, -⟩ := copied_takeKeeps xready s
    exact resetLow.trans free
  have startedFree : (s.started xready).resetLow = false := (started_keeps xready s).resetLow.trans copiedFree
  have cFree : c.resetLow = false :=
    (keyCutStages_stageKeeps _).resetLow.trans ((sceneCutStage_resetLow _).trans startedFree)
  have dFree : d.resetLow = false := (finish_stageKeeps (mainStage_stageKeeps c)).resetLow.trans cFree
  have stagedFree : (s.staged xready).resetLow = false := (staged_takeKeeps xready s).resetLow.trans copiedFree
  have shown := published_keeps xready s
  obtain ⟨rtg, cq, -⟩ := staged_queues xready s
  have switched := switchPointWork_switched xready s
  refine ⟨_, s.framed xready, c, d, s.staged xready, _, exec_switchPoint xready free,
    runRows_cons (timedRow_next closed rfl) rfl, runRows_cons (timedRow_next settled rfl) rfl, ?_,
    runRows_mainAction cFree, fun h => laterStages_performed h.1 h.2, fun waits => ?_, ?_, ?_⟩
  · refine Eq.trans (congrArg (runRows _) ?_) (runRows_beforeMain copiedFree)
    rw [copied_eq]
    simp only [framed_mes, framed_tc]
    rfl
  · have advanced : s.staged xready = finish (advanceStage d) := laterStages_waiting waits
    rw [advanced]
    refine ⟨fun idle => ?_, fun auto gone => ?_, fun manual gone => ?_, fun auto f flies => ?_,
      fun manual h held => ?_⟩
    · have stage : advanceStage d = manualStage d := by simp only [advanceStage, idle]
      rw [stage]
      exact runRows_cons (timedRow_next dFree rfl) rfl
    · rw [advanceStage_auto auto, autoAdvance, gone]
      rfl
    · rw [advanceStage_manual manual, leverAdvance, gone]
      rfl
    · rw [advanceStage_auto auto, finish_autoAdvance flies]
      refine ⟨fun more => if_pos more, fun last => ?_⟩
      have ended : dueCompletion d = some ⟨f.selection, some f.type, false⟩ := by
        simp only [dueCompletion, auto, autoAdvance, flies]
        rw [if_neg (Nat.not_lt.2 last)]
      rw [if_neg (Nat.not_lt.2 last), ← complete_eq ⟨f.selection, some f.type, false⟩]
      exact runRows_cons (exec_completion dFree ended) rfl
    · intro pl
      have lever : d.lever h = d.lu.levers.get h := rfl
      have stage : finish (leverAdvance d) = if pl = 0 then releaseHold (toIdle d)
          else if 4096 ≤ pl then complete { completeRunning d with byLever := true } d
          else d.withTc { d.tc with pos := pl } := by
        rw [leverAdvance, held]
        dsimp only
        rw [lever]
        split
        · rfl
        · split <;> rfl
      rw [advanceStage_manual manual, stage]
      refine ⟨fun home => ?_, fun away below => ?_, fun full => ?_⟩
      · rw [if_pos home]
        exact released_home manual
      · rw [if_neg (by omega), if_neg (by omega)]
      · have ended : dueCompletion d = some { completeRunning d with byLever := true } := by
          have far : (d.lever h).pos ≠ 0 := by rw [lever]; omega
          simp only [dueCompletion, manual, leverAdvance, held]
          rw [if_neg far, if_pos (show 4096 ≤ (d.lever h).pos from full)]
        rw [if_neg (by omega), if_pos full]
        exact runRows_cons (exec_completion dFree ended) rfl
  · have counter : (s.published xready).rtg.counter = s.rtg.counter + 1 := by rw [shown.rtg, rtg]; rfl
    refine runRows_cueRelease (s := s.published xready) (shown.resetLow.trans stagedFree) ?_
    have test : isDue (s.published xready) = fun e => e.target == s.rtg.counter + 1 := funext fun e => by
      rw [isDue, counter]
    rw [shown.cq, cq, test]
  · generalize switchPointWork xready s = t at *
    refine ⟨by rw [switched.rtg]; rfl, by rw [switched.cmp]; rfl, by rw [switched.cmp]; rfl,
      by rw [switched.cmp]; rfl, fun p => ?_, switched.entries, switched.nextTag, switched.locks, switched.ss,
      switched.thresholds.1, switched.thresholds.2, switched.lastGranted, switched.pending⟩
    have clip : flagSet (t.ports.get p).flags .clip
        = (flagSet (s.ports.get p).flags .clip || decide (0 < s.cmp.working)) :=
      switched.flags p .clip (by decide) (by decide)
    rw [clip]
    exact ⟨fun some => by simp [some], fun none => by simp [none]⟩

end Sys2Proof.Machine
end

section
/-!
SUPPORT. What the intake makes of a frame does not depend on the link: the phases, answers, waiting frames and
streaming of the ports (section 11.4). A grant of a waiting command so has the effect of its row.
-/

namespace Sys2Proof.Machine

/-! ### The link of a port -/

/-- What a port holds of its link: all but the select line, the settings and the notices. -/
structure PortLink where
  phase : LinkPhase
  streaming : Bool
  reply : Option Reply
  response : List Byte
  waiting : List WaitingFrame

def PortState.link (ps : PortState) : PortLink := ⟨ps.phase, ps.streaming, ps.reply, ps.response, ps.waiting⟩

/-- The port with another link. -/
def PortState.withLink (ps : PortState) (l : PortLink) : PortState :=
  { ps with phase := l.phase, streaming := l.streaming, reply := l.reply, response := l.response, waiting := l.waiting }

/-- The state with other links. -/
def State.withLinks (ls : Port → PortLink) (s : State) : State := s.onPorts fun q ps => ps.withLink (ls q)

/-- The links once the streaming of port `p` has changed. -/
def streamingBy (on : Bool → Bool) (p : Port) (ls : Port → PortLink) : Port → PortLink := fun q =>
  if q = p then { ls q with streaming := on (ls q).streaming } else ls q

theorem streamingBy_id (p : Port) (ls : Port → PortLink) : streamingBy id p ls = ls :=
  funext fun q => ite_self (ls q)

/-- Two states that differ at most in their ports are equal when each port is. -/
theorem state_eq_of_ports {s t : State} (same : { s with ports := t.ports } = t)
    (ports : ∀ q, s.ports.get q = t.ports.get q) : s = t := by
  rw [← same, ← PerPort.ext_get ports]

theorem onPorts_comm {f g : Port → PortState → PortState} (h : ∀ q ps, f q (g q ps) = g q (f q ps)) (s : State) :
    (s.onPorts g).onPorts f = (s.onPorts f).onPorts g := by
  exact state_eq_of_ports rfl fun q => by simp [State.onPorts, h]

theorem raisedWhen_withLink (c : Bool) (n : Notice) (ps : PortState) (l : PortLink) :
    raisedWhen c n (ps.withLink l) = (raisedWhen c n ps).withLink l := by
  cases c <;> rfl

section Links
variable {ls : Port → PortLink} {p : Port} {s : State}

@[simp] theorem port_withLinks (ls : Port → PortLink) (q : Port) (s : State) :
    (s.withLinks ls).ports.get q = (s.ports.get q).withLink (ls q) :=
  PerPort.get_build _ q

theorem onPorts_raisedWhen_withLinks (c : Port → Bool) (n : Notice) :
    (s.withLinks ls).onPorts (fun q => raisedWhen (c q) n) = (s.onPorts fun q => raisedWhen (c q) n).withLinks ls :=
  onPorts_comm (g := fun q ps => ps.withLink (ls q)) (fun q ps => raisedWhen_withLink (c q) n ps (ls q)) s

theorem onPort_withLinks {f : PortState → PortState} (h : ∀ ps l, f (ps.withLink l) = (f ps).withLink l) :
    (s.withLinks ls).onPort p f = (s.onPort p f).withLinks ls := by
  refine state_eq_of_ports rfl fun q => ?_
  by_cases own : q = p
  · subst own
    simp [State.onPort, h]
  · simp [State.onPort, own]

theorem setStreaming_withLinks (on : Bool) :
    setStreaming p on (s.withLinks ls) = (setStreaming p on s).withLinks (streamingBy (fun _ => on) p ls) := by
  refine state_eq_of_ports rfl fun q => ?_
  by_cases own : q = p
  · subst own
    simp [setStreaming, streamingBy, PortState.withLink]
  · simp [setStreaming, streamingBy, own]

/-! ### The checks -/

theorem checked_withLinks {rs : List Resource} {ok : Bool} {rest rest' : Answer}
    (h : rest' = rest.onState (State.withLinks ls)) :
    checked p rs ok (s.withLinks ls) rest' = (checked p rs ok s rest).onState (State.withLinks ls) := by
  have locked : lockedOut (s.withLinks ls) p rs = lockedOut s p rs := rfl
  unfold checked
  rw [locked, h]
  cases lockedOut s p rs <;> cases ok <;> rfl

theorem slotChecked_withLinks {slot : Byte} {ok : Bool} {rest rest' : Answer}
    (h : rest' = rest.onState (State.withLinks ls)) :
    slotChecked slot ok (s.withLinks ls) rest' = (slotChecked slot ok s rest).onState (State.withLinks ls) := by
  have held : isProtected (s.withLinks ls) slot = isProtected s slot := rfl
  unfold slotChecked
  rw [held, h]
  cases isProtected s slot <;> cases ok <;> rfl

theorem ite_withLinks {c : Prop} [Decidable c] {a b a' b' : Answer} (ha : a' = a.onState (State.withLinks ls))
    (hb : b' = b.onState (State.withLinks ls)) :
    (if c then a' else b') = (if c then a else b).onState (State.withLinks ls) := by
  subst ha hb
  split <;> rfl

theorem unlessSame_withLinks {b b' : Bool} {t t' : State} (same : b' = b) (ht : t' = t.withLinks ls) :
    unlessSame b' t' (s.withLinks ls) = (unlessSame b t s).onState (State.withLinks ls) := by
  subst same ht
  cases b' <;> rfl

end Links

/-! ### The commands, one by one -/

/-- A deal that neither reads the links nor changes them. -/
def Linkless (deal : State → Answer) : Prop :=
  ∀ ls s, deal (s.withLinks ls) = (deal s).onState (State.withLinks ls)

theorem linkless_inputRead (input : Byte) : Linkless (dealInputRead input) := fun ls s => by
  unfold dealInputRead
  cases inputOf input <;> rfl

theorem linkless_tallyRead (start count window : Byte) : Linkless (dealTallyRead start count window) :=
  fun _ _ => ite_withLinks rfl rfl

theorem linkless_sceneRead (slot : Byte) : Linkless (dealSceneRead slot) := fun ls s => by
  unfold dealSceneRead
  cases slotOf slot with
  | none => rfl
  | some n =>
    have same : (s.withLinks ls).slot n = s.slot n := rfl
    dsimp only
    rw [same]
    cases s.slot n <;> rfl

theorem linkless_noticeRead (p : Port) : Linkless (dealNoticeRead p) := fun ls s => by
  have flags : ((s.withLinks ls).port p).flags = (s.port p).flags := by simp [State.port, PortState.withLink]
  unfold dealNoticeRead
  rw [flags]
  exact congrArg (answered _) (onPort_withLinks (f := fun ps => { ps with flags := 0 }) fun _ _ => rfl)

theorem linkless_cueCommand (c : CueCommand) (p : Port) : Linkless (dealCueCommand c p) := fun ls s => by
  have same := dealCueCommand_same c p s
  refine (dealCueCommand_withPorts (s.withLinks ls).ports s.lastGranted s.cq c p s).trans ?_
  refine congrArg (Answer.mk _ _) ?_
  rw [← same.lastGranted, ← same.cq]
  exact state_eq_of_ports rfl fun q => by simp [State.withPorts, same.ports]

theorem linkless_limiterSetup (yLo yHi cLo cHi : Half) (p : Port) : Linkless (dealLimiterSetup yLo yHi cLo cHi p) :=
  fun _ _ => checked_withLinks (unlessSame_withLinks rfl rfl)

theorem raiseAll_withLinks (n : Notice) (ls : Port → PortLink) (s : State) :
    raiseAll n (s.withLinks ls) = (raiseAll n s).withLinks ls := by
  have all : ∀ t, raiseAll n t = t.onPorts fun _ => raisedWhen true n := raiseAllWhen_eq_onPorts true n
  rw [all, all]
  exact onPorts_raisedWhen_withLinks (fun _ => true) n

theorem raiseAllWhen_withLinks (c : Bool) (n : Notice) (ls : Port → PortLink) (s : State) :
    raiseAllWhen c n (s.withLinks ls) = (raiseAllWhen c n s).withLinks ls := by
  cases c with
  | false => rfl
  | true => exact raiseAll_withLinks n ls s

theorem raiseEach_withLinks (n : Notice) (pick : Port → Bool) (ls : Port → PortLink) (s : State) :
    raiseEach n pick (s.withLinks ls) = (raiseEach n pick s).withLinks ls :=
  onPorts_raisedWhen_withLinks pick n

theorem freeLocks_withLinks (p : Port) (pick : Resource → Bool) (ls : Port → PortLink) (s : State) :
    freeLocks p pick (s.withLinks ls) = (freeLocks p pick s).withLinks ls :=
  raiseAllWhen_withLinks (holdsAny s p pick) .locks ls (setLocks _ s)

theorem dropCues_withLinks (keep : CueEntry → Bool) (ls : Port → PortLink) (s : State) :
    dropCues keep (s.withLinks ls) = (dropCues keep s).withLinks ls :=
  raiseEach_withLinks .cueDrop _ ls (setEntries _ s)

theorem losePickups_withLinks (spared : Option Port) (ls : Port → PortLink) (s : State) :
    losePickups spared (s.withLinks ls) = (losePickups spared s).withLinks ls :=
  congrArg (clearPickups _) (raiseEach_withLinks .leverLost _ ls s)

theorem engineResetWork_withLinks (p : Port) (ls : Port → PortLink) (s : State) :
    engineResetWork p (s.withLinks ls) = (engineResetWork p s).withLinks ls := by
  rw [engineResetWork_eq, engineResetWork_eq]
  refine state_eq_of_ports rfl fun q => ?_
  rw [port_withLinks, PerPort.get_build, PerPort.get_build, port_withLinks]
  simp only [raisedWhen_withLink]
  rfl

theorem linkless_lock (mask : Byte) (p : Port) : Linkless (dealLock mask p) := fun ls s =>
  checked_withLinks (ite_withLinks rfl (congrArg (taken .ok) (raiseAll_withLinks .locks ls (setLocks _ s))))

theorem linkless_unlock (mask : Byte) (p : Port) : Linkless (dealUnlock mask p) := fun ls s =>
  checked_withLinks (ite_withLinks (congrArg (taken .ok) (freeLocks_withLinks p _ ls s)) rfl)

theorem linkless_leverRelease (p : Port) : Linkless (dealLeverRelease p) := fun _ _ => ite_withLinks rfl rfl

theorem linkless_cue (target : Word) (code : Byte) (args : List Byte) (p : Port) :
    Linkless (dealCue target code args p) := fun ls s => by
  unfold dealCue
  cases parseCue code args with
  | none => rfl
  | some c => exact checked_withLinks (ite_withLinks rfl (ite_withLinks rfl rfl))

theorem linkless_cueCancel (tag : Half) (p : Port) : Linkless (dealCueCancel tag p) := fun ls s => by
  refine ite_withLinks rfl ?_
  have same : (s.withLinks ls).cq = s.cq := rfl
  rw [same]
  cases s.cq.entries.find? fun e => e.tag == tag with
  | none => rfl
  | some e => exact ite_withLinks rfl rfl

theorem linkless_sceneSave (slot mask : Byte) : Linkless (dealSceneSave slot mask) := fun ls s => by
  refine slotChecked_withLinks ?_
  cases slotOf slot <;> rfl

theorem linkless_sceneLoad (slot mask : Byte) (parts : List Byte) : Linkless (dealSceneLoad slot mask parts) :=
  fun ls s => by
    refine slotChecked_withLinks ?_
    cases slotOf slot <;> cases sceneOf mask parts <;> rfl

theorem linkless_sceneErase (slot : Byte) : Linkless (dealSceneErase slot) := fun ls s => by
  refine slotChecked_withLinks ?_
  cases slotOf slot with
  | none => rfl
  | some n => exact unlessSame_withLinks rfl rfl

theorem linkless_sceneProtect (count : Byte) (p : Port) : Linkless (dealSceneProtect count p) :=
  fun _ _ => checked_withLinks (unlessSame_withLinks rfl rfl)

theorem linkless_timingSetup (raster enable : Byte) (p : Port) : Linkless (dealTimingSetup raster enable p) :=
  fun ls s => by
    refine checked_withLinks ?_
    cases rasterOf raster with
    | none => rfl
    | some r =>
      cases boolOf enable with
      | none => rfl
      | some on => exact ite_withLinks rfl (ite_withLinks rfl (ite_withLinks rfl rfl))

theorem linkless_setFrameCount (value : Word) (p : Port) : Linkless (dealSetFrameCount value p) := fun ls s =>
  checked_withLinks (congrArg (taken .ok) (dropCues_withLinks _ ls (setCounter value s)))

theorem linkless_alignSetup (lMin lMax : Byte) (p : Port) : Linkless (dealAlignSetup lMin lMax p) :=
  fun _ _ => checked_withLinks (unlessSame_withLinks rfl rfl)

theorem linkless_portSetup (format quiet : Byte) (p : Port) : Linkless (dealPortSetup format quiet p) := fun ls s => by
  unfold dealPortSetup
  cases formatOf format with
  | none => rfl
  | some f =>
    refine ite_withLinks rfl (unlessSame_withLinks ?_ ?_)
    · simp [State.port, PortState.withLink]
    · exact onPort_withLinks (f := fun ps => { ps with format := f, quietLimit := quiet.toNat }) fun _ _ => rfl

theorem linkless_noticeMask (mask : Half) (p : Port) : Linkless (dealNoticeMask mask p) := fun ls s => by
  refine ite_withLinks rfl (unlessSame_withLinks ?_ ?_)
  · simp [State.port, PortState.withLink]
  · exact onPort_withLinks (f := fun ps => { ps with mask := mask }) fun _ _ => rfl

theorem linkless_engineReset (p : Port) : Linkless (dealEngineReset p) := fun ls s =>
  checked_withLinks (congrArg (taken .ok) (engineResetWork_withLinks p ls s))

/-! ### The lever and its streaming -/

theorem linkless_leverValue (field : Half) (p : Port) : Linkless (dealLeverValue field p) := fun ls s => by
  have format : ((s.withLinks ls).port p).format = (s.port p).format := by simp [State.port, PortState.withLink]
  have idle : ∀ v, idleValue p v (s.withLinks ls) = (idleValue p v s).onState (State.withLinks ls) := fun v => by
    unfold idleValue
    cases rehomeEnd v <;> rfl
  have manual : ∀ v, manualValue p v (s.withLinks ls) = (manualValue p v s).onState (State.withLinks ls) := fun v =>
    ite_withLinks (congrArg (taken .ok) (losePickups_withLinks (some p) ls
      (holdLever p (s.setLever p { (s.lever p).withValue v with pickup := .none })))) rfl
  have held : ∀ h v, (if h = p then holderValue p v (s.withLinks ls) else refuse .locked (s.withLinks ls)) =
      (if h = p then holderValue p v s else refuse .locked s).onState (State.withLinks ls) :=
    fun _ _ => ite_withLinks rfl rfl
  have mode : (s.withLinks ls).tc = s.tc := rfl
  have holder : (s.withLinks ls).lu = s.lu := rfl
  refine checked_withLinks ?_
  dsimp only
  rw [format, mode, holder]
  cases s.tc.mode with
  | auto => rfl
  | idle =>
    cases s.lu.holder with
    | none => exact idle _
    | some h => exact held h _
  | manual =>
    cases s.lu.holder with
    | none => exact manual _
    | some h => exact held h _

/-! ### What a frame does to the streaming of its port -/

/-- The deal of a frame of port `p` neither reads the links nor changes them, but for the streaming of its own
port, which it changes by `on`. -/
def DealsWith (p : Port) (deal : State → Answer) (s : State) (on : Bool → Bool) : Prop :=
  ∀ ls, deal (s.withLinks ls) = (deal s).onState (State.withLinks (streamingBy on p ls))

theorem Linkless.dealsWith {deal : State → Answer} (h : Linkless deal) (p : Port) (s : State) :
    DealsWith p deal s id := fun ls => by
  rw [streamingBy_id]
  exact h ls s

theorem dealsWith_lever (field : Half) (mode : Byte) (p : Port) (s : State) :
    ∃ on, (on = id ∨ on = fun _ => true) ∧ DealsWith p (dealLever field mode p) s on := by
  have value := fun ls => linkless_leverValue field p ls s
  by_cases enters : mode = streamMode ∧ (dealLeverValue field p s).outcome.refused = false
  · refine ⟨_, .inr rfl, fun ls => ?_⟩
    simp only [dealLever, value, Answer.onState, if_pos enters, setStreaming_withLinks]
  · refine ⟨_, .inl rfl, fun ls => ?_⟩
    simp only [dealLever, value, Answer.onState, if_neg enters, streamingBy_id]

theorem dealsWith_stream (field : Half) (mode : Byte) (p : Port) (s : State) :
    ∃ on, (on = id ∨ on = fun _ => false) ∧ DealsWith p (dealStream field mode p) s on := by
  have value := fun ls => linkless_leverValue field p ls s
  by_cases keeps : mode = streamMode
  · refine ⟨_, .inl rfl, fun ls => ?_⟩
    simp only [dealStream, value, Answer.onState, if_pos keeps, streamingBy_id]
  · refine ⟨_, .inr rfl, fun ls => ?_⟩
    simp only [dealStream, value, Answer.onState, if_neg keeps, setStreaming_withLinks]

theorem portResetWork_withLinks (p : Port) (ls : Port → PortLink) (s : State) :
    portResetWork p (s.withLinks ls) = (portResetWork p s).withLinks (streamingBy (fun _ => false) p ls) := by
  rw [portResetWork_eq, portResetWork_eq]
  refine state_eq_of_ports rfl fun q => ?_
  rw [port_withLinks, PerPort.get_build, PerPort.get_build, port_withLinks, ← raisedWhen_withLink]
  refine congrArg (raisedWhen _ .locks) ?_
  by_cases own : q = p
  · simp [own, streamingBy]
    rfl
  · simp [own, streamingBy]

theorem dealsWith_portReset (p : Port) (s : State) : DealsWith p (dealPortReset p) s fun _ => false := fun ls =>
  congrArg (taken .ok) (portResetWork_withLinks p ls s)

/-- What a command makes of its port's streaming, as the streaming of a command that waited: a LEVER command may
turn it on and PORT RESET turns it off; a command that waited while streaming was turned on leaves it on unless it
is PORT RESET. -/
def CommandStreaming (covered : List Byte) (on : Bool → Bool) : Prop :=
  ∀ was, (on false || (was && covered != [0x4A#8])) = on was

theorem commandStreaming_id {covered : List Byte} (other : (covered != [0x4A#8]) = true) :
    CommandStreaming covered id := fun was => by
  rw [other, Bool.and_true]
  rfl

theorem commandStreaming_true (covered : List Byte) : CommandStreaming covered fun _ => true := fun _ => rfl

theorem Linkless.command {deal : State → Answer} (h : Linkless deal) {p : Port} {covered : List Byte}
    (other : (covered != [0x4A#8]) = true) (s : State) (same : dealCovered p covered = deal) :
    ∃ on, CommandStreaming covered on ∧ DealsWith p (dealCovered p covered) s on :=
  ⟨id, commandStreaming_id other, same ▸ h.dealsWith p s⟩

theorem dealsWith_command {c : Instr} {f : Frame} (h : commandFrameOf c = some f) (s : State) :
    ∃ on, CommandStreaming f.covered on ∧ DealsWith f.port (dealCovered f.port f.covered) s on := by
  cases c with
  | cue p target code body =>
    obtain ⟨hp, hc, -⟩ := sizedFrameOf_eq h
    rw [hp, hc]
    exact (linkless_cue _ _ _ _).command rfl s (dealCovered_cue ..)
  | sceneLoad p slot mask body =>
    obtain ⟨hp, hc, hl⟩ := sizedFrameOf_eq h
    rw [hp, hc]
    exact (linkless_sceneLoad _ _ _).command rfl s (dealCovered_sceneLoad _ _ _ _ hl)
  | stateRead => cases h; exact Linkless.command (fun _ _ => rfl) rfl s (dealCovered_stateRead _)
  | timingRead => cases h; exact Linkless.command (fun _ _ => rfl) rfl s (dealCovered_timingRead _)
  | inputRead => cases h; exact (linkless_inputRead _).command rfl s (dealCovered_inputRead ..)
  | tallyRead => cases h; exact (linkless_tallyRead _ _ _).command rfl s (dealCovered_tallyRead ..)
  | tallyChanges => cases h; exact Linkless.command (fun _ _ => rfl) rfl s (dealCovered_tallyChanges _)
  | clipRead => cases h; exact Linkless.command (fun _ _ => rfl) rfl s (dealCovered_clipRead _)
  | cueList => cases h; exact Linkless.command (fun _ _ => rfl) rfl s (dealCovered_cueList _)
  | sceneRead => cases h; exact (linkless_sceneRead _).command rfl s (dealCovered_sceneRead ..)
  | noticeRead => cases h; exact (linkless_noticeRead _).command rfl s (dealCovered_noticeRead _)
  | selectBus p bus src =>
    cases h; exact (linkless_cueCommand (.selectBus bus src) p).command rfl s (dealCovered_selectBus ..)
  | setNext p layers type =>
    cases h; exact (linkless_cueCommand (.setNext layers type) p).command rfl s (dealCovered_setNext ..)
  | setRate p rate => cases h; exact (linkless_cueCommand (.setRate rate) p).command rfl s (dealCovered_setRate ..)
  | keySetup p k f clip gain op =>
    cases h; exact (linkless_cueCommand (.keySetup k f clip gain op) p).command rfl s (dealCovered_keySetup ..)
  | keyCrop p k e l r t b =>
    cases h; exact (linkless_cueCommand (.keyCrop k e l r t b) p).command rfl s (dealCovered_keyCrop ..)
  | keyOrder p a b c d =>
    cases h; exact (linkless_cueCommand (.keyOrder a b c d) p).command rfl s (dealCovered_keyOrder ..)
  | wipeSetup p pat e rh rv cx cy f =>
    cases h; exact (linkless_cueCommand (.wipeSetup pat e rh rv cx cy f) p).command rfl s (dealCovered_wipeSetup ..)
  | matteSet p m y cb cr =>
    cases h; exact (linkless_cueCommand (.matteSet m y cb cr) p).command rfl s (dealCovered_matteSet ..)
  | limiterSetup => cases h; exact (linkless_limiterSetup _ _ _ _ _).command rfl s (dealCovered_limiterSetup ..)
  | lock => cases h; exact (linkless_lock _ _).command rfl s (dealCovered_lock ..)
  | unlock => cases h; exact (linkless_unlock _ _).command rfl s (dealCovered_unlock ..)
  | cut p => cases h; exact (linkless_cueCommand .cut p).command rfl s (dealCovered_cut _)
  | auto p => cases h; exact (linkless_cueCommand .auto p).command rfl s (dealCovered_auto _)
  | keyCut p k t => cases h; exact (linkless_cueCommand (.keyCut k t) p).command rfl s (dealCovered_keyCut ..)
  | lever p v mode =>
    cases h
    obtain ⟨on, changes, deals⟩ := dealsWith_lever v mode p s
    refine ⟨on, ?_, dealCovered_lever p v mode ▸ deals⟩
    rcases changes with rfl | rfl
    · exact commandStreaming_id rfl
    · exact commandStreaming_true _
  | leverRelease => cases h; exact (linkless_leverRelease _).command rfl s (dealCovered_leverRelease _)
  | cueCancel => cases h; exact (linkless_cueCancel _ _).command rfl s (dealCovered_cueCancel ..)
  | sceneSave => cases h; exact (linkless_sceneSave _ _).command rfl s (dealCovered_sceneSave ..)
  | sceneErase => cases h; exact (linkless_sceneErase _).command rfl s (dealCovered_sceneErase ..)
  | sceneRecall p slot mode =>
    cases h; exact (linkless_cueCommand (.sceneRecall slot mode) p).command rfl s (dealCovered_sceneRecall ..)
  | sceneProtect => cases h; exact (linkless_sceneProtect _ _).command rfl s (dealCovered_sceneProtect ..)
  | timingSetup => cases h; exact (linkless_timingSetup _ _ _).command rfl s (dealCovered_timingSetup ..)
  | setFrameCount => cases h; exact (linkless_setFrameCount _ _).command rfl s (dealCovered_setFrameCount ..)
  | alignSetup => cases h; exact (linkless_alignSetup _ _ _).command rfl s (dealCovered_alignSetup ..)
  | portSetup => cases h; exact (linkless_portSetup _ _ _).command rfl s (dealCovered_portSetup ..)
  | noticeMask => cases h; exact (linkless_noticeMask _ _).command rfl s (dealCovered_noticeMask ..)
  | portReset p =>
    cases h
    exact ⟨fun _ => false, fun was => Bool.and_false was, dealCovered_portReset p ▸ dealsWith_portReset p s⟩
  | engineReset => cases h; exact (linkless_engineReset _).command rfl s (dealCovered_engineReset _)
  | _ => cases h

end Sys2Proof.Machine
end

section
/-!
SUPPORT. A step of the engine: the front command, or the intake's grant of a waiting one (section 11.4).
-/

namespace Sys2Proof.Machine

/-! ### A frame that may wait, and its row -/

theorem dealWaiting_stream (p : Port) (value : Half) (mode : Byte) :
    dealWaiting p ⟨true, be16 value ++ [mode]⟩ = dealStream value mode p := by
  show dealStream (half (value.extractLsb' 8 8) (value.extractLsb' 0 8)) mode p = _
  rw [half_be16]

/-- The row of a frame that may wait passes it to the intake, which deals with it in the same way later. -/
theorem WaitsAs.exec_eq {c : Instr} {p : Port} {f : WaitingFrame} {s : State} (h : WaitsAs c p f)
    (live : s.resetLow = false) (receives : (s.ports.get p).phase = .receiving)
    (mode : (s.ports.get p).streaming = f.stream) :
    exec c s = .next (passToIntake p f (dealWaiting p f) s) := by
  obtain ⟨stream, covered⟩ := f
  obtain ⟨rfl, frame⟩ | ⟨rfl, value, byte, rfl, rfl, noBreak⟩ := h
  · have reads := (takesCommand_iff s p).2 ⟨live, receives, mode⟩
    rw [exec_dealCovered frame, commandFrame, if_pos reads, if_pos rfl]
    rfl
  · have reads := (takesStream_iff s p).2 ⟨live, receives, mode⟩
    show Host.Outcome.next (streamCourse p value byte _ s) = _
    rw [dealWaiting_stream, streamCourse, if_pos reads, if_neg noBreak, if_pos rfl]

/-- What a waiting frame makes of its port's streaming, given what its row alone makes of it. -/
def WaitingStreaming (f : WaitingFrame) (on : Bool → Bool) : Prop :=
  ∀ was, (if f.stream then was && on f.stream else on f.stream || (was && f.covered != [0x4A#8])) = on was

theorem WaitsAs.dealsWith {c : Instr} {p : Port} {f : WaitingFrame} (h : WaitsAs c p f) (s : State) :
    ∃ on, WaitingStreaming f on ∧ DealsWith p (dealWaiting p f) s on := by
  obtain ⟨stream, covered⟩ := f
  obtain ⟨rfl, frame⟩ | ⟨rfl, value, mode, -, rfl, -⟩ := h
  · exact dealsWith_command frame s
  · obtain ⟨on, changes, deals⟩ := dealsWith_stream value mode p s
    refine ⟨on, fun was => ?_, dealWaiting_stream p value mode ▸ deals⟩
    rcases changes with rfl | rfl
    · exact Bool.and_true was
    · exact Bool.and_false was

/-! ### The grant -/

theorem grantOrder_eq (last : Port) : grantOrder last = match last with
    | .cp0 => [Port.cp1, .cp2, .cp0]
    | .cp1 => [.cp2, .cp0, .cp1]
    | .cp2 => [.cp0, .cp1, .cp2] := by
  cases last <;> rfl

theorem grantNext_eq {p : Port} {f : WaitingFrame} {rest : List WaitingFrame} {before after : List Port} {s : State}
    (waits : (s.ports.get p).waiting = f :: rest) (order : grantOrder s.lastGranted = before ++ p :: after)
    (first : ∀ q ∈ before, (s.ports.get q).waiting = []) : grantNext s = grantWaiting p f rest s := by
  have next : nextGranted s = some p :=
    List.find?_eq_some_iff_append.2
      ⟨by simp [State.port, waits], before, after, order, fun q hq => by simp [State.port, first q hq]⟩
  have waits' : (s.port p).waiting = f :: rest := waits
  simp only [grantNext, next, waits']

theorem step_of_idle {s : State} (empty : s.pending = []) : step s = .next (unlessReset grantNext s) := by
  rw [step, empty]

/-- The state that the frame of port `p` would find if it arrived alone. -/
def State.alone (p : Port) (f : WaitingFrame) (s : State) : State :=
  s.onPorts fun q ps =>
    if q = p then { ps with waiting := [], phase := .receiving, streaming := f.stream } else { ps with waiting := [] }

/-- The links of a state. -/
def State.links (s : State) (q : Port) : PortLink := (s.ports.get q).link

/-- The links that the frame would find if it arrived alone. -/
def aloneLinks (p : Port) (f : WaitingFrame) (s : State) (q : Port) : PortLink :=
  if q = p then { s.links q with waiting := [], phase := .receiving, streaming := f.stream }
  else { s.links q with waiting := [] }

/-- The links once port `p` has given up its oldest waiting command. -/
def grantedLinks (p : Port) (rest : List WaitingFrame) (s : State) (q : Port) : PortLink :=
  if q = p then { s.links q with waiting := rest } else s.links q

theorem grant_alone (p : Port) (f : WaitingFrame) (s : State) :
    grant p (s.alone p f) = (grant p s).withLinks (aloneLinks p f s) := by
  refine state_eq_of_ports rfl fun q => ?_
  rw [port_withLinks]
  refine (PerPort.get_build _ q).trans ?_
  by_cases own : q = p <;> (simp only [own, aloneLinks, if_true, if_false]; rfl)

theorem grant_waiting (p : Port) (rest : List WaitingFrame) (s : State) :
    grant p (mapPort p (fun ps => { ps with waiting := rest }) s) = (grant p s).withLinks (grantedLinks p rest s) := by
  refine state_eq_of_ports rfl fun q => ?_
  rw [port_withLinks]
  by_cases own : q = p
  · subst own
    simp [grantedLinks, mapPort]
    rfl
  · simp [own, grantedLinks, mapPort]
    rfl

theorem nothingWaits_alone (p : Port) (f : WaitingFrame) (s : State) : NothingWaits (s.alone p f) := fun q => by
  refine (congrArg PortState.waiting (PerPort.get_build _ q)).trans ?_
  dsimp only
  split <;> rfl

theorem awaited_iff (rest : List WaitingFrame) (p : Port) (s : State) :
    (rest.isEmpty && awaitsAnswer (s.port p)) = true ↔
      rest = [] ∧ (s.ports.get p).phase = .awaiting ∧ (s.ports.get p).reply = none := by
  simp only [awaitsAnswer, State.port, Bool.and_eq_true, List.isEmpty_iff, Option.isNone_iff_eq_none]
  exact and_congr Iff.rfl (and_congr decide_eq_true_iff Iff.rfl)

/-- What a grant makes of a port that is not the frame's, or of the frame's own port, against what the frame's row
alone makes of it. -/
def regranted (p : Port) (f : WaitingFrame) (rest : List WaitingFrame) (s : State) (q : Port) (ps : PortState) :
    PortState :=
  let was := s.ports.get q
  if q ≠ p then { ps with waiting := was.waiting }
  else
    let dealt := { ps with streaming :=
      if f.stream then was.streaming && ps.streaming
      else ps.streaming || (was.streaming && f.covered != [0x4A#8]) }
    if rest = [] ∧ (s.ports.get p).phase = .awaiting ∧ (s.ports.get p).reply = none then dealt
    else { dealt with phase := was.phase, reply := was.reply, response := was.response, waiting := rest }

section Granted
variable {p : Port} {f : WaitingFrame} {rest : List WaitingFrame} {s : State} {on : Bool → Bool}
  (streams : WaitingStreaming f on) (o : CmdOutcome) (data : List Byte) (t : State)
include streams

/-- The port of the frame, on which its answer is awaited. -/
theorem regranted_awaited (awaited : rest = [] ∧ (s.ports.get p).phase = .awaiting ∧ (s.ports.get p).reply = none) :
    reply p o data (t.withLinks (streamingBy on p (grantedLinks p rest s))) =
      (reply p o data (t.withLinks (streamingBy on p (aloneLinks p f s)))).onPorts (regranted p f rest s) := by
  refine state_eq_of_ports rfl fun q => ?_
  rw [State.onPorts, PerPort.get_build]
  by_cases own : q = p
  · subst own
    simp [regranted, awaited, streamingBy, grantedLinks, aloneLinks, PortState.withLink, State.links, PortState.link,
      streams _]
  · simp [regranted, own, streamingBy, grantedLinks, aloneLinks, PortState.withLink, State.links,
      PortState.link]

theorem regranted_lost (lost : ¬(rest = [] ∧ (s.ports.get p).phase = .awaiting ∧ (s.ports.get p).reply = none)) :
    t.withLinks (streamingBy on p (grantedLinks p rest s)) =
      (reply p o data (t.withLinks (streamingBy on p (aloneLinks p f s)))).onPorts (regranted p f rest s) := by
  refine state_eq_of_ports rfl fun q => ?_
  rw [State.onPorts, PerPort.get_build]
  by_cases own : q = p
  · subst own
    simp [regranted, lost, streamingBy, grantedLinks, aloneLinks, PortState.withLink, State.links, PortState.link,
      streams _]
  · simp [regranted, own, streamingBy, grantedLinks, aloneLinks, PortState.withLink, State.links,
      PortState.link]

end Granted

/-- Settles O1: whatever links the ports have, the intake makes the same of a frame, and a link is left as it was
but for the streaming that the frame itself changes. -/
theorem stepRunsFrontCommand : Obligations.StepRunsFrontCommand := by
  refine ⟨fun c rest s => rfl, fun s empty nothing => ?_, fun c p f s waits live receives mode busy => ?_,
    fun c p f rest before after s waits live empty queue order first => ?_⟩
  · have nobody : grantNext s = s := by
      obtain ⟨-, same⟩ | ⟨p, f, rest, -, -, -, -, waits, -⟩ := grantNext_cases s
      · exact same
      · exact absurd ((nothing p).symm.trans waits) (List.cons_ne_nil f rest).symm
    rw [step_of_idle empty, unlessReset, nobody, ite_self]
  · rw [waits.exec_eq live receives mode, passToIntake, if_neg (mt (intakeFree_iff s).1 busy)]
    rfl
  · obtain ⟨on, streams, deals⟩ := waits.dealsWith (grant p s)
    let a := dealWaiting p f (grant p s)
    have own : (s.alone p f).ports.get p =
        { s.ports.get p with waiting := [], phase := .receiving, streaming := f.stream } :=
      (PerPort.get_build _ p).trans (if_pos rfl)
    have row : exec c (s.alone p f) =
        .next (reply p a.outcome a.data (a.state.withLinks (streamingBy on p (aloneLinks p f s)))) := by
      have alone := waits.exec_eq (s := s.alone p f) live (congrArg PortState.phase own)
        (congrArg PortState.streaming own)
      rw [alone, passToIntake, if_pos ((intakeFree_iff _).2 (nothingWaits_alone p f s)), intake, grant_alone, deals]
      rfl
    have granted : step s = .next (grantWaiting p f rest s) := by
      rw [step_of_idle empty, unlessReset_of_free live, grantNext_eq queue ((grantOrder_eq _).trans order) first]
    refine ⟨_, a.outcome, a.data, row, ?_, ?_, granted.trans (congrArg Host.Outcome.next ?_)⟩
    · exact (dealt_dealWaiting p f (grant p s)).commandKeeps.lastGranted
    · simp
    · rw [grantWaiting, grant_waiting, deals]
      by_cases awaited : rest = [] ∧ (s.ports.get p).phase = .awaiting ∧ (s.ports.get p).reply = none
      · rw [if_pos ((awaited_iff rest p s).2 awaited)]
        exact regranted_awaited streams a.outcome a.data a.state awaited
      · rw [if_neg (mt (awaited_iff rest p s).1 awaited)]
        exact regranted_lost streams a.outcome a.data a.state awaited

end Sys2Proof.Machine
end
